-- ==== Sys2Proof/Word.lean ====
section
/-! DEFINITION. The word types of the core and the plain data its sub-blocks pass to each other
(spec/00_scope.md R11, spec/30_encoding.md R90 to R92). -/

namespace Sys2Proof

/-- A byte of the display bus or of the display address space. -/
abbrev Byte := BitVec 8

/-- `TICK_W = 16` bits: `tick_count`, `dly_target` and every delay length (00 R7). -/
abbrev TickWord := BitVec 16

/-- `IDX_W = 3` bits: `step_idx` (00 R7). -/
abbrev StepIndex := BitVec 3

/-- `MOTOR_W = 4` bits: one step-table entry, one motor pattern (00 R7). -/
abbrev Phase := BitVec 4

/-- A 7-bit address of the display address space `DDRAM` (20 R70). -/
abbrev DdAddr := BitVec 7

/-- Format `BUSW10`: bit 9 `RS`, bit 8 `RW`, bits 7:0 `D` (30 R90). -/
abbrev BusWord := BitVec 10

/-- Format `NIB6`: `{lcd_rs, lcd_rw, lcd_d[7:4]}` of one strobe (30 R92). -/
abbrev Nib6 := BitVec 6

/-- The event vector `EV` (30 R97). -/
abbrev EventVector := BitVec 4

/-- A string as the character codes that are sent for it (44 R229, R232). -/
abbrev Text := List Byte

/-- Direction of rotation (00 glossary; 10 R35: 0 = Clockwise, 1 = CounterClockwise). -/
inductive Direction where
  | clockwise
  | counterClockwise
  deriving DecidableEq, Repr

/-- Step mode (00 glossary; 10 R35: 0 = Full, 1 = Half). -/
inductive StepMode where
  | full
  | half
  deriving DecidableEq, Repr

/-- The flag bit of a direction (10 R35). -/
def Direction.bit : Direction → Bool
  | .clockwise => false
  | .counterClockwise => true

/-- The flag bit of a step mode (10 R35). -/
def StepMode.bit : StepMode → Bool
  | .full => false
  | .half => true

/-- `BUS_WIDTH`, 4 or 8 data lines (00 R7). -/
inductive BusWidth where
  | four
  | eight
  deriving DecidableEq, Repr

/-- A transaction word, format `TW9`: `rs` (0 command, 1 data) and the byte (30 R91). -/
structure TxWord where
  rs : Bool
  byte : Byte
  deriving DecidableEq, Repr

end Sys2Proof
end

