-- ==== Sys2Proof/Config.lean ====
section
/-! DEFINITION. The parameters of one core (spec/00_scope.md R7) and the free values: constants with
no body, so that no proof can see what they are. -/

namespace Sys2Proof

/-- The parameters of 00 R7 that a configuration may choose. `TICK_W`, `MOTOR_W`, `IDX_W`, `LOCK_W`, `PRE_W`,
`FULL_TABLE` and `ROW_BASE` are fixed by R7 and are types or constants. -/
structure Config where
  /-- `PRESCALE`, clock cycles per tick, OPEN, at least 1. -/
  prescale : Nat
  /-- `SETTLE_TICKS`, ticks of each strobe hold. -/
  settleTicks : TickWord
  /-- `PACE_TICKS`, ticks of the pacing delay, OPEN. -/
  paceTicks : TickWord
  /-- `BUS_WIDTH`. -/
  busWidth : BusWidth
  /-- `DEBOUNCE_CYCLES`, edge lockout length in cycles. -/
  debounceCycles : Nat
  /-- `HALF_TABLE`, H[0] to H[7], OPEN. -/
  halfTable : Vector Phase 8
  /-- `CMD_FS4`. -/
  cmdFs4 : Byte
  /-- `CMD_FS2L_4`. -/
  cmdFs2l4 : Byte
  /-- `CMD_FS2L_8`. -/
  cmdFs2l8 : Byte
  /-- `CMD_DISP_ON_CUR`. -/
  cmdDispOnCur : Byte
  /-- `CMD_CLEAR`. -/
  cmdClear : Byte
  /-- `CMD_SET_ADDR`, ORed with a 7-bit address. -/
  cmdSetAddr : Byte
  deriving DecidableEq, Repr

/-- The open `PRESCALE` of the reset instance, less one: 00 R7 asks for a value of at least 1 and gives none.
DESIGN CHOICE (assumption 2), safe. -/
opaque Config.openPrescalePred : Nat

/-- The open `PACE_TICKS` of the reset instance (00 R7, 92 D13). DESIGN CHOICE (assumption 2), safe. -/
opaque Config.openPaceTicks : TickWord

/-- The open `HALF_TABLE` of the reset instance (00 R7, 92 D12). DESIGN CHOICE (assumption 2), safe. -/
opaque Config.openHalfEntry : Nat → Phase

/-- The draw of `rst` in a cycle for which no input is scheduled (10 R31, 60 R306). Assumption 3, safe. -/
opaque Config.freeRst : Nat → Bool

/-- The draw of `dir_btn_n` in such a cycle. Assumption 3, safe. -/
opaque Config.freeDirBtnN : Nat → Bool

/-- The draw of `mode_btn_n` in such a cycle. Assumption 3, safe. -/
opaque Config.freeModeBtnN : Nat → Bool

/-- What `INIT_SCRIPT` reads past its last index; the spec states no value. Assumption 6, safe. -/
opaque Config.freeInitByte : Nat → Byte

/-- The select bit of what `RENDER` reads past index 18; the spec states no value. Assumption 6, safe. -/
opaque Config.freeRenderRs : Nat → Bool

/-- The byte of what `RENDER` reads past index 18. Assumption 6, safe. -/
opaque Config.freeRenderByte : Nat → Byte

/-- Display content that the spec calls `any value` (93 U15), by event and address. Assumption 14, safe. -/
opaque Config.freeDisplayByte : Nat → Nat → Byte

/-- The observer's address counter where the display content is `any value` (93 U15). Assumption 14, safe. -/
opaque Config.freeDisplayAddr : Nat → DdAddr

end Sys2Proof
end

