-- ==== Sys2Proof/Machine/Params.lean ====
section
/-! DEFINITION. The values the spec gives to parameters and tables (spec/00_scope.md R7), the widths derived
from them, and the check a configuration must pass. -/

namespace Sys2Proof

/-- The configuration of the reset instance: every parameter at the value 00 R7 states, the three OPEN ones
(`PRESCALE`, `PACE_TICKS`, `HALF_TABLE`) at constants without a body. The `CMD_*` values are PRESUMED (44 R220
takes them from general knowledge; assumption 17). -/
def Config.reference : Config where
  prescale := Config.openPrescalePred + 1
  settleTicks := 1
  paceTicks := Config.openPaceTicks
  busWidth := .four
  debounceCycles := 0
  halfTable := .ofFn fun i => Config.openHalfEntry i.val
  cmdFs4 := 0x02
  cmdFs2l4 := 0x28
  cmdFs2l8 := 0x38
  cmdDispOnCur := 0x0E
  cmdClear := 0x01
  cmdSetAddr := 0x80

/-- The constraints of 00 R7 that the types do not carry: `PRESCALE >= 1` and `CMD_SET_ADDR[6:0] = 0`.
`BUS_WIDTH` in 4, 8 and the widths of the other parameters hold by their types. -/
def Config.valid (c : Config) : Bool :=
  c.prescale != 0 && c.cmdSetAddr.setWidth 7 == 0#7

/-- `PRE_W`: the least w >= 1 with 2^w >= PRESCALE (00 R7). -/
def Config.preW (c : Config) : Nat :=
  if c.prescale ≤ 2 then 1 else Nat.log2 (c.prescale - 1) + 1

/-- `LOCK_W`: the least w >= 1 with 2^w > DEBOUNCE_CYCLES (00 R7). -/
def Config.lockW (c : Config) : Nat :=
  if c.debounceCycles = 0 then 1 else Nat.log2 c.debounceCycles + 1

/-- `NPH`: phases of one transaction (43 R191, 30 R99). -/
def BusWidth.nph : BusWidth → Nat
  | .four => 2
  | .eight => 1

/-- `FULL_TABLE` = 12, 6, 3, 9 (00 R7). -/
def fullTable : Vector Phase 4 := #v[12, 6, 3, 9]

/-- Read of the address space `STEPROM_FULL`, addresses 0..3 (20 R70). -/
def readFull (a : BitVec 2) : Phase :=
  fullTable[a.toNat]'a.isLt

/-- Read of the address space `STEPROM_HALF`, addresses 0..7 (20 R70). -/
def readHalf (c : Config) (a : BitVec 3) : Phase :=
  c.halfTable[a.toNat]'a.isLt

/-- `table_entry(mode, idx)`: the Full table is read at `idx mod 4` (20 R71, 42 R162). -/
def tableEntry (c : Config) (mode : StepMode) (idx : StepIndex) : Phase :=
  match mode with
  | .full => readFull (idx.setWidth 2)
  | .half => readHalf c idx

/-- `len(mo)`: 4 entries in Full, 8 in Half (42 R162). -/
def tableLen : StepMode → Nat
  | .full => 4
  | .half => 8

/-- `next_idx(i, di, mo)`: advance mod the table length clockwise, retreat with wraparound at zero
counter-clockwise, applied to the stored index as it stands (42 R162). -/
def nextIdx (i : StepIndex) (di : Direction) (mo : StepMode) : StepIndex :=
  match di with
  | .clockwise => BitVec.ofNat 3 ((i.toNat + 1) % tableLen mo)
  | .counterClockwise => if i = 0 then BitVec.ofNat 3 (tableLen mo - 1) else i - 1

/-- `ROW_BASE`: display address of column 0 of rows 0..3; no other row has one (00 R7, 44 R231). -/
def rowBase : Nat → Option Nat
  | 0 => some 0x00
  | 1 => some 0x40
  | 2 => some 0x10
  | 3 => some 0x50
  | _ => none

end Sys2Proof
end

