-- ==== Sys2Proof/Machine/State.lean ====
section
/-! DEFINITION. The state of the core: every register of spec/10_state.md R36 by its owner, the parameters,
the display observer of 20 R74, and the model's own fields (INVENTORY.md, "State"). Plain data. -/

namespace Sys2Proof.Machine

/-- Registers of `tick_timer` (10 R36). -/
structure TickTimer where
  /-- `pre_cnt`, `PRE_W` bits (40 R121). -/
  preCnt : Nat
  /-- `tick_count` (40 R122). -/
  tickCount : TickWord
  /-- `dly_busy` (40 R124). -/
  dlyBusy : Bool
  /-- `dly_target` (40 R124). -/
  dlyTarget : TickWord
  deriving DecidableEq, Repr

/-- Registers of one `edge_latch_sync` instance; `α` is the type of the flag it owns (10 R36). -/
structure EdgeLatch (α : Type) where
  /-- `sync_X0` (41 R140). -/
  sync0 : Bool
  /-- `sync_X1` (41 R140). -/
  sync1 : Bool
  /-- `prev_X` (41 R141). -/
  prev : Bool
  /-- `lock_X`, `LOCK_W` bits (41 R144). -/
  lock : Nat
  /-- `dir_flag` or `mode_flag` (41 R145, R146). -/
  flag : α
  deriving DecidableEq, Repr

/-- Registers of `stepper_sequencer` (10 R36). -/
structure Sequencer where
  /-- `seq_state`, a code of 30 R93. -/
  state : BitVec 3
  /-- `step_idx` (42 R164). -/
  stepIdx : StepIndex
  /-- `snap_dir` (42 R163). -/
  snapDir : Direction
  /-- `snap_mode` (42 R163). -/
  snapMode : StepMode
  /-- `motor_phase` (42 R164). -/
  motorPhase : Phase
  deriving DecidableEq, Repr

/-- Registers of the init runner of `display_bus_multiplexer` (10 R36). -/
structure InitRunner where
  /-- `i_state`, a code of 30 R93. -/
  state : BitVec 2
  /-- `i_ptr` (43 R194). -/
  ptr : BitVec 2
  deriving DecidableEq, Repr

/-- Registers of the transaction engine of `display_bus_multiplexer` (10 R36). -/
structure Engine where
  /-- `d_state`, a code of 30 R93. -/
  state : BitVec 3
  /-- `nib`, the phase number: false first, true second (43 R198, R202). -/
  nib : Bool
  /-- `tx_rs` (43 R198). -/
  txRs : Bool
  /-- `tx_byte` (43 R198). -/
  txByte : Byte
  /-- `lcd_e` (43 R200, R201). -/
  lcdE : Bool
  /-- `lcd_rs` (43 R199). -/
  lcdRs : Bool
  /-- `lcd_rw` (43 R199). -/
  lcdRw : Bool
  /-- `lcd_d` (43 R199). -/
  lcdD : Byte
  deriving DecidableEq, Repr

/-- Registers of `display_refresh_gate` (10 R36). -/
structure RefreshGate where
  /-- `g_state`, a code of 30 R93. -/
  state : BitVec 2
  /-- `r_ptr` (45 R254, R255). -/
  rPtr : BitVec 5
  /-- `last_valid` (45 R255). -/
  lastValid : Bool
  /-- `last_dir` (45 R255). -/
  lastDir : Direction
  /-- `last_mode` (45 R255). -/
  lastMode : StepMode
  deriving DecidableEq, Repr

/-- The address space `DDRAM`: the cells that differ from what an unlisted cell reads as, by rising address. -/
abbrev Memory := List Host.Cell

/-- What a cell of `DDRAM` reads as when nothing is listed for it: a space, the value a clear writes (20 R74).
The content at power-on is not in the spec: DESIGN CHOICE (assumption 13), unsafe. -/
def Memory.blank : Byte := 0x20

/-- The canonical form: addresses strictly rising and inside 0..127 (20 R70), no cell listed that reads as blank. -/
abbrev Memory.wf (m : Memory) : Prop :=
  m.Pairwise (fun x y => x.1 < y.1) ∧ ∀ x ∈ m, x.1 < 128 ∧ x.2 ≠ Memory.blank

/-- The display observer of 20 R74 and the pin receiver of 30 R102, outside the core. -/
structure Display where
  /-- `DDRAM[0..127]` (20 R74). -/
  mem : Memory
  /-- `AC`, the address counter (20 R74). -/
  ac : DdAddr
  /-- At `BUS_WIDTH = 4`, the first phase of a transaction whose second phase is still to come (30 R102). -/
  half : Option Nib6
  /-- The last completed transaction, as decoded from the pins (30 R90, R102). -/
  lastWord : Option BusWord
  /-- An `rst` cut a 4-bit transaction between its phases: the content is any value from then on (70 R327,
  93 U15). The model's own field (assumption 14). -/
  desync : Bool
  deriving DecidableEq, Repr

/-- The input levels of one cycle (10 R30). -/
structure Inputs where
  rst : Bool
  dirBtnN : Bool
  modeBtnN : Bool
  deriving DecidableEq, Repr

/-- No reset and both buttons at their pulled-up idle level (10 R30). -/
def Inputs.idle : Inputs := ⟨false, true, true⟩

end Sys2Proof.Machine

namespace Sys2Proof.Machine

/-- The machine. -/
structure State where
  /-- The parameters of this core (00 R7); no step changes them (assumption 2). -/
  cfg : Config
  timer : TickTimer
  dir : EdgeLatch Direction
  mode : EdgeLatch StepMode
  seq : Sequencer
  ini : InitRunner
  eng : Engine
  gate : RefreshGate
  /-- Outside the core (20 R74). -/
  display : Display
  /-- The model's own: transaction words issued by a pseudo-operation, not yet taken (assumption 8). -/
  script : List TxWord
  /-- The model's own: the input levels of the coming cycles, the next one first (assumption 3). -/
  inputs : List Inputs
  /-- The model's own: how many steps were taken; the free draws are applied to it (assumption 3). -/
  cycle : Nat
  deriving DecidableEq, Repr

/-- Why a step ends in a fault. -/
inductive Fault where
  /-- Raised by `SET_ADDR` in the form `GOTO r, c` and by `PUTS_AT` when the row is above 3 (60 R291, 44 R231).
  Nothing is issued. Safe: the spec gives the call no meaning. -/
  | gotoRowOutOfRange (row : Nat)
  deriving DecidableEq, Repr

/-- Why a step is refused. -/
inductive Refusal where
  /-- Raised by an arm of `exec` whose instruction has no meaning yet. Safe: nothing is claimed. No arm raises it now. -/
  | notModelled (mnemonic : String)
  /-- Raised by `step` for a configuration that fails a constraint of 00 R7 (60 R291). Safe: no model is claimed. -/
  | badConfiguration
  deriving DecidableEq, Repr

/-- The outcome of an operation or a step. -/
abbrev Result := Host.Outcome State Fault Refusal

/-- The reset values of 10 R36, 70 R310, by owner. The four state codes are 0: `S_INIT`, `I_ISSUE`, `D_IDLE`, `G_IDLE`. -/
def TickTimer.reset : TickTimer := ⟨0, 0, false, 0⟩
/-- Synchroniser stages and previous level at the idle level 1, no lockout (41 R140; 70 R310). -/
def EdgeLatch.reset {α : Type} (flag : α) : EdgeLatch α := ⟨true, true, true, 0, flag⟩
/-- 70 R310. -/
def Sequencer.reset : Sequencer := ⟨0, 0, .clockwise, .full, 0⟩
/-- 70 R310. -/
def InitRunner.reset : InitRunner := ⟨0, 0⟩
/-- 70 R310. -/
def Engine.reset : Engine := ⟨0, false, false, 0, false, false, false, 0⟩
/-- 70 R310. -/
def RefreshGate.reset : RefreshGate := ⟨0, 0, false, .clockwise, .full⟩

/-- The display before anything reached it. Not a register of the core and not in the spec: DESIGN CHOICE
(assumptions 13, 14), unsafe. -/
def Display.initial : Display := ⟨[], 0, none, none, false⟩

/-- A core with the parameters `c` right after reset: every register at the value of 70 R310; no input scheduled,
so every later input is a free draw. -/
def State.resetOf (c : Config) : State where
  cfg := c
  timer := .reset
  dir := .reset .clockwise
  mode := .reset .full
  seq := .reset
  ini := .reset
  eng := .reset
  gate := .reset
  display := .initial
  script := []
  inputs := []
  cycle := 0

/-- The machine right after reset, at the stated parameter values and open values for the OPEN ones (00 R7). -/
def State.reset : State := State.resetOf Config.reference

end Sys2Proof.Machine
end

