-- ==== Sys2Proof/Machine/Flags.lean ====
section
/-! DEFINITION. The two flags and the edge latches that own them: toggles, falling-edge detection, lockout, and the
registers a latch writes in every cycle (spec/41_edge_latch_sync.md). The core has no condition codes (10 R35). -/

namespace Sys2Proof.Machine

/-- Toggle of `dir_flag` (41 R145). -/
def toggleDirection : Direction → Direction
  | .clockwise => .counterClockwise
  | .counterClockwise => .clockwise

/-- Toggle of `mode_flag` (41 R146). -/
def toggleMode : StepMode → StepMode
  | .full => .half
  | .half => .full

/-- `fall_X = prev_X and not sync_X1` (41 R142). -/
def EdgeLatch.fall {α : Type} (l : EdgeLatch α) : Bool := l.prev && !l.sync1

/-- `accept_X = fall_X and (lock_X == 0)` (41 R143). -/
def EdgeLatch.accept {α : Type} (l : EdgeLatch α) : Bool := l.fall && l.lock == 0

/-- The next value of `lock_X` (41 R144). -/
def EdgeLatch.nextLock {α : Type} (debounce : Nat) (l : EdgeLatch α) : Nat :=
  if l.accept then debounce else if l.lock > 0 then l.lock - 1 else 0

/-- What a latch writes in every cycle besides its flag, at the input level `btnN` (41 R140, R141, R144). -/
def EdgeLatch.sample {α : Type} (debounce : Nat) (btnN : Bool) (l : EdgeLatch α) : EdgeLatch α :=
  { l with sync0 := btnN, sync1 := l.sync0, prev := l.sync1, lock := l.nextLock debounce }

end Sys2Proof.Machine
end

