-- ==== Sys2Proof/Machine/Commands.lean ====
section
/-! DEFINITION. The display command layer: the transaction words of every command, text and script
(spec/44_display_commands.md, spec/46_host_formatting.md, 43 R192, 45 R252). Nothing here touches a register. -/

namespace Sys2Proof

/-- A command word `CMD c`: `rs = 0` (30 R100). -/
def cmdWord (c : Byte) : TxWord := ⟨false, c⟩

/-- A data word `DATA v`: `rs = 1` (30 R100). -/
def dataWord (v : Byte) : TxWord := ⟨true, v⟩

/-- The bus word of a transaction word: `{w[8], 1'b0, w[7:0]}`, since the engine always writes (30 R91). -/
def TxWord.busWord (w : TxWord) : BusWord :=
  BitVec.ofBool w.rs ++ (0#1 ++ w.byte)

/-- The 9-bit `TW9` number of a transaction word: bit 8 `rs`, bits 7:0 the byte (30 R91). -/
def TxWord.tw9 (w : TxWord) : BitVec 9 :=
  BitVec.ofBool w.rs ++ w.byte

/-- The set-address word of a 7-bit address: `D = CMD_SET_ADDR | addr` (30 R94, 44 R224). -/
def setAddrWord (c : Config) (a : DdAddr) : TxWord :=
  cmdWord (c.cmdSetAddr ||| a.setWidth 8)

/-- `GOTO r, c`: the address `(ROW_BASE[r] + c) mod 128`, none for a row above 3 (44 R224, R231). -/
def gotoAddr (row col : Nat) : Option DdAddr :=
  (rowBase row).map fun base => BitVec.ofNat 7 ((base + col) % 128)

/-- The ASCII code of a character (44 R232, from general knowledge). -/
def charCode (ch : Char) : Byte := BitVec.ofNat 8 ch.toNat

/-- The codes of a string of characters (44 R229, R232). -/
def textOf (chars : List Char) : Text := chars.map charCode

/-- `PUTS t`: one `DATA` word per character, in string order, no terminator (44 R229). -/
def putsWords (t : Text) : List TxWord := t.map dataWord

/-- `PUTS_AT r, c, t`: `GOTO r, c` then `PUTS t`; none for a row above 3 (44 R230, R231). -/
def putsAtWords (c : Config) (row col : Nat) (t : Text) : Option (List TxWord) :=
  (gotoAddr row col).map fun a => setAddrWord c a :: putsWords t

/-- The decimal digits of `m` put before `acc`, most significant first, by the loop of 46 R270 (`while m > 0`);
`fuel` bounds the loop, and `m` itself is always enough. -/
def digitsBefore : Nat → Nat → Text → Text
  | 0, _, acc => acc
  | fuel + 1, m, acc =>
    if m = 0 then acc else digitsBefore fuel (m / 10) (BitVec.ofNat 8 (0x30 + m % 10) :: acc)

/-- The digits of a natural number, `"0"` for zero (46 R270). -/
def renderNat (m : Nat) : Text :=
  if m = 0 then [charCode '0'] else digitsBefore m m []

/-- `renderInteger(v)` (46 R270, R271): a leading `-` for a negative value, no other sign. -/
def renderInteger (v : Int) : Text :=
  if v < 0 then charCode '-' :: renderNat v.natAbs else renderNat v.natAbs

/-- `ip = floor(|v|)` of 46 R272, for `v = num / den` in lowest terms. -/
def fixedInt (v : Rat) : Nat := v.num.natAbs / v.den

/-- `fp = floor((|v| - ip) * 100)` of 46 R272: the remainder of the integer part, scaled and truncated. -/
def fixedFrac (v : Rat) : Nat := v.num.natAbs % v.den * 100 / v.den

/-- `renderFixedPoint(v)`: two fractional digits, truncated toward zero on the magnitude, and no sign when the
truncated magnitude is zero (46 R272, R273). -/
def renderFixedPoint (v : Rat) : Text :=
  let ip := fixedInt v
  let fp := fixedFrac v
  let sign := if v.num < 0 ∧ (0 < ip ∨ 0 < fp) then [charCode '-'] else []
  sign ++ renderInteger ip ++
    [charCode '.', BitVec.ofNat 8 (0x30 + fp / 10), BitVec.ofNat 8 (0x30 + fp % 10)]

/-- The bytes of `INIT_SCRIPT` (43 R192). -/
def initBytes (c : Config) : List Byte :=
  match c.busWidth with
  | .four => [c.cmdFs4, c.cmdFs2l4, c.cmdDispOnCur, c.cmdClear]
  | .eight => [c.cmdFs2l8, c.cmdDispOnCur, c.cmdClear]

/-- `INIT_SCRIPT` as transaction words, each with `rs = 0` (43 R192). -/
def initScript (c : Config) : List TxWord := (initBytes c).map cmdWord

/-- `INIT_LEN`: 4 at `BUS_WIDTH = 4`, 3 at 8 (43 R192). -/
def initLen (c : Config) : Nat :=
  match c.busWidth with
  | .four => 4
  | .eight => 3

/-- `dtext`: the direction text, three characters (45 R252). -/
def dtext : Direction → Text
  | .clockwise => textOf ['C', 'W', ' ']
  | .counterClockwise => textOf ['C', 'C', 'W']

/-- `mtext`: the mode text (45 R252). -/
def mtext : StepMode → Text
  | .full => textOf ['F', 'u', 'l', 'l']
  | .half => textOf ['H', 'a', 'l', 'f']

/-- Row 0 of the display: `"Dir:"` and the direction text (45 R252, R257). -/
def dirLabel (di : Direction) : Text := textOf ['D', 'i', 'r', ':'] ++ dtext di

/-- Row 1 of the display: `"Mode:"` and the mode text (45 R252, R257). -/
def modeLabel (mo : StepMode) : Text := textOf ['M', 'o', 'd', 'e', ':'] ++ mtext mo

/-- `RENDER(di, mo)`: `CLR`, `PUTS_AT 0, 0, "Dir:" + dtext(di)`, `PUTS_AT 1, 0, "Mode:" + mtext(mo)`, 19 words
(45 R252). Rows 0 and 1 are in range, so the `none` of `putsAtWords` does not arise. -/
def renderScript (c : Config) (di : Direction) (mo : StepMode) : List TxWord :=
  cmdWord c.cmdClear ::
    ((putsAtWords c 0 0 (dirLabel di)).getD [] ++ (putsAtWords c 1 0 (modeLabel mo)).getD [])

/-- The last index of the render script (45 R252: index 0..18). -/
def renderLast : Nat := 18

end Sys2Proof
end

