-- ==== Sys2Proof/Syntax.lean ====
section
/-! DEFINITION. The operations of the core, one constructor per row of spec/opcode_table.json
(spec/00_scope.md R10, spec/30_encoding.md R95, R93, R97, R101). -/

namespace Sys2Proof

/-- The two operand forms of the set-address command: `SET_ADDR a` and `GOTO r, c` (44 R224). -/
inductive AddrOperand where
  /-- `SET_ADDR a`: the 7-bit display address itself. -/
  | addr (a : DdAddr)
  /-- `GOTO r, c`: row and column, the column any non-negative integer. -/
  | rowCol (row col : Nat)
  deriving DecidableEq, Repr

/-- The formats of the encoded operations (30 R90, R93, R97). A word does not name its format: the place it is
held in does (the bus, one of the four state registers, the event vector). -/
inductive Format where
  | busw10
  | seqState
  | initState
  | engState
  | gateState
  | events
  deriving DecidableEq, Repr

/-- One operation of the core. -/
inductive Instr where
  /-- `CLEAR`, `CLR` (44 R222). -/
  | clear
  /-- `FS4` (44 R223). -/
  | fs4
  /-- `DISP_ON_CUR` (44 R228). -/
  | dispOnCur
  /-- `FS2L_4` (44 R225). -/
  | fs2l4
  /-- `FS2L_8` (44 R227). -/
  | fs2l8
  /-- `SET_ADDR a`, `GOTO r, c` (44 R224). -/
  | setAddr (x : AddrOperand)
  /-- `DATA v`, `PUTC v` (44 R226). -/
  | data (v : Byte)
  /-- `SEQ.S_INIT` (42 R160). -/
  | seqInit
  /-- `SEQ.S_SAMPLE` (42 R163). -/
  | seqSample
  /-- `SEQ.S_STEP` (42 R164). -/
  | seqStep
  /-- `SEQ.S_REFRESH` (42 R166). -/
  | seqRefresh
  /-- `SEQ.S_PACE` (42 R167). -/
  | seqPace
  /-- `INIT.I_ISSUE` (43 R193). -/
  | initIssue
  /-- `INIT.I_WAIT` (43 R194). -/
  | initWait
  /-- `INIT.I_READY` (43 R196). -/
  | initReady
  /-- `ENG.D_IDLE` (43 R198). -/
  | engIdle
  /-- `ENG.D_SETUP` (43 R199). -/
  | engSetup
  /-- `ENG.D_EON` (43 R200). -/
  | engEon
  /-- `ENG.D_EHI` (43 R201). -/
  | engEhi
  /-- `ENG.D_ELO` (43 R202). -/
  | engElo
  /-- `ENG.D_DONE` (43 R204). -/
  | engDone
  /-- `GATE.G_IDLE` (45 R254). -/
  | gateIdle
  /-- `GATE.G_ISSUE` (45 R253). -/
  | gateIssue
  /-- `GATE.G_WAIT` (45 R255). -/
  | gateWait
  /-- `GATE.G_DONE` (45 R256). -/
  | gateDone
  /-- `SEQ.unused`, codes 5, 6, 7 (42 R168). -/
  | seqUnused (code : BitVec 3)
  /-- `INIT.unused`, code 3 (43 R207). -/
  | initUnused
  /-- `ENG.unused`, codes 6, 7 (43 R207). -/
  | engUnused (code : BitVec 3)
  /-- `TICK`, `EV[0]` (40 R120). -/
  | tick
  /-- `DIR_EDGE`, `EV[1]` (41 R145). -/
  | dirEdge
  /-- `MODE_EDGE`, `EV[2]` (41 R146). -/
  | modeEdge
  /-- `DELAY_START`, `EV[3]` (40 R124). -/
  | delayStart
  /-- `SENDCMD c` (44 R221). -/
  | sendcmd (c : Byte)
  /-- `PUTS t` (44 R229). -/
  | puts (t : Text)
  /-- `PUTS_AT r, c, t` (44 R230). -/
  | putsAt (row col : Nat) (t : Text)
  /-- `PUTINT v` (46 R270). -/
  | putint (v : Int)
  /-- `PUTFIX v`, an exact rational (46 R272). -/
  | putfix (v : Rat)
  /-- `INIT`, the init script (43 R192). -/
  | init
  deriving DecidableEq, Repr

end Sys2Proof
end

