-- ==== Sys2Proof/WellFormed.lean ====
section
/-! DEFINITION. Which operations are well formed: the operand limits that the types do not carry. -/

namespace Sys2Proof

/-- A set-address operand is well formed when its row is 0 to 3 (44 R224, R231). -/
def AddrOperand.wf : AddrOperand → Bool
  | .addr _ => true
  | .rowCol row _ => decide (row ≤ 3)

/-- The well-formed operations: rows in 0..3 (44 R224, R230), unused state codes that are unused
(30 R93: `seq_state` 5, 6, 7, `d_state` 6, 7). Every other operand is any value of its type. -/
def Instr.wf : Instr → Bool
  | .setAddr x => x.wf
  | .putsAt row _ _ => decide (row ≤ 3)
  | .seqUnused code => decide (5 ≤ code.toNat)
  | .engUnused code => decide (6 ≤ code.toNat)
  | .clear | .fs4 | .dispOnCur | .fs2l4 | .fs2l8 | .data _ => true
  | .seqInit | .seqSample | .seqStep | .seqRefresh | .seqPace => true
  | .initIssue | .initWait | .initReady | .initUnused => true
  | .engIdle | .engSetup | .engEon | .engEhi | .engElo | .engDone => true
  | .gateIdle | .gateIssue | .gateWait | .gateDone => true
  | .tick | .dirEdge | .modeEdge | .delayStart => true
  | .sendcmd _ | .puts _ | .putint _ | .putfix _ | .init => true

end Sys2Proof
end

