-- ==== Sys2Proof/Decode.lean ====
section
/-! DEFINITION. The encodings: state codes, bus words, event vectors, decoded to operations and encoded back
(spec/30_encoding.md R90 to R102, spec/opcode_table.json). Total: every word decodes or is rejected by name. -/

namespace Sys2Proof

/-- Codes of `seq_state` (30 R93). -/
@[simp] abbrev SeqCode.sInit : BitVec 3 := 0#3
/-- Code of `S_SAMPLE` (30 R93). -/
@[simp] abbrev SeqCode.sSample : BitVec 3 := 1#3
/-- Code of `S_STEP` (30 R93). -/
@[simp] abbrev SeqCode.sStep : BitVec 3 := 2#3
/-- Code of `S_REFRESH` (30 R93). -/
@[simp] abbrev SeqCode.sRefresh : BitVec 3 := 3#3
/-- Code of `S_PACE` (30 R93). -/
@[simp] abbrev SeqCode.sPace : BitVec 3 := 4#3

/-- Codes of `i_state` (30 R93). -/
@[simp] abbrev InitCode.iIssue : BitVec 2 := 0#2
/-- Code of `I_WAIT` (30 R93). -/
@[simp] abbrev InitCode.iWait : BitVec 2 := 1#2
/-- Code of `I_READY` (30 R93). -/
@[simp] abbrev InitCode.iReady : BitVec 2 := 2#2

/-- Codes of `d_state` (30 R93). -/
@[simp] abbrev EngCode.dIdle : BitVec 3 := 0#3
/-- Code of `D_SETUP` (30 R93). -/
@[simp] abbrev EngCode.dSetup : BitVec 3 := 1#3
/-- Code of `D_EON` (30 R93). -/
@[simp] abbrev EngCode.dEon : BitVec 3 := 2#3
/-- Code of `D_EHI` (30 R93). -/
@[simp] abbrev EngCode.dEhi : BitVec 3 := 3#3
/-- Code of `D_ELO` (30 R93). -/
@[simp] abbrev EngCode.dElo : BitVec 3 := 4#3
/-- Code of `D_DONE` (30 R93). -/
@[simp] abbrev EngCode.dDone : BitVec 3 := 5#3

/-- Codes of `g_state` (30 R93). -/
@[simp] abbrev GateCode.gIdle : BitVec 2 := 0#2
/-- Code of `G_ISSUE` (30 R93). -/
@[simp] abbrev GateCode.gIssue : BitVec 2 := 1#2
/-- Code of `G_WAIT` (30 R93). -/
@[simp] abbrev GateCode.gWait : BitVec 2 := 2#2
/-- Code of `G_DONE` (30 R93). -/
@[simp] abbrev GateCode.gDone : BitVec 2 := 3#2

/-- The arm a code of `seq_state` selects (30 R93, R96). -/
def seqOp (code : BitVec 3) : Instr :=
  if code = SeqCode.sInit then .seqInit
  else if code = SeqCode.sSample then .seqSample
  else if code = SeqCode.sStep then .seqStep
  else if code = SeqCode.sRefresh then .seqRefresh
  else if code = SeqCode.sPace then .seqPace
  else .seqUnused code

/-- The arm a code of `i_state` selects (30 R93, R96). -/
def initOp (code : BitVec 2) : Instr :=
  if code = InitCode.iIssue then .initIssue
  else if code = InitCode.iWait then .initWait
  else if code = InitCode.iReady then .initReady
  else .initUnused

/-- The arm a code of `d_state` selects (30 R93, R96). -/
def engOp (code : BitVec 3) : Instr :=
  if code = EngCode.dIdle then .engIdle
  else if code = EngCode.dSetup then .engSetup
  else if code = EngCode.dEon then .engEon
  else if code = EngCode.dEhi then .engEhi
  else if code = EngCode.dElo then .engElo
  else if code = EngCode.dDone then .engDone
  else .engUnused code

/-- The arm a code of `g_state` selects (30 R93). -/
def gateOp (code : BitVec 2) : Instr :=
  if code = GateCode.gIdle then .gateIdle
  else if code = GateCode.gIssue then .gateIssue
  else if code = GateCode.gWait then .gateWait
  else .gateDone

/-- The bus operation of a write word, the most specific row of 30 R95 first. A command byte in no row is the generic
command `SENDCMD` (44 R221; DEDUCED, assumption 9). The set-address row is the one whose `D[7]` is that of
`CMD_SET_ADDR` (assumption 24). Where two of the five fixed command values are equal, which 00 R7 allows, their rows are
equally specific and 30 R95 does not say which matches: the first in the order below is taken. DESIGN CHOICE
(assumption 25), safe: the byte issued is the same. -/
def busOp (c : Config) (w : TxWord) : Instr :=
  if w.rs then .data w.byte
  else if w.byte = c.cmdClear then .clear
  else if w.byte = c.cmdFs4 then .fs4
  else if w.byte = c.cmdDispOnCur then .dispOnCur
  else if w.byte = c.cmdFs2l4 then .fs2l4
  else if w.byte = c.cmdFs2l8 then .fs2l8
  else if w.byte.getLsbD 7 = c.cmdSetAddr.getLsbD 7 then .setAddr (.addr (w.byte.setWidth 7))
  else .sendcmd w.byte

/-- Why the decoder rejects a word. -/
inductive Reject where
  /-- A bus word with `RW = 1`: never issued, the core performs no read (30 R98). -/
  | readWord
  /-- A bit is set above the width of the format (30 R90, R93, R97). -/
  | tooWide
  /-- An event vector with no bit set: no operation (30 R97). -/
  | noEvent
  /-- An event vector with several bits set: several operations, see `eventOps` (30 R97). -/
  | severalEvents
  /-- A length the table gives no row. -/
  | noFormat
  deriving DecidableEq, Repr

/-- The transaction word of a bus word, its `RW` bit left out (30 R90, R91). -/
def txOfBus (w : BusWord) : TxWord := ⟨w.getLsbD 9, w.setWidth 8⟩

/-- The operations of an event vector, one for each set bit (30 R97). -/
def eventOps (ev : EventVector) : List Instr :=
  (if ev.getLsbD 0 then [.tick] else []) ++ (if ev.getLsbD 1 then [.dirEdge] else []) ++
    (if ev.getLsbD 2 then [.modeEdge] else []) ++ (if ev.getLsbD 3 then [.delayStart] else [])

/-- The operation of a word held in the place `f` names, on a core with the parameters `c`. -/
def decode (c : Config) (f : Format) (w : BusWord) : Except Reject Instr :=
  match f with
  | .busw10 => if w.getLsbD 8 then .error .readWord else .ok (busOp c (txOfBus w))
  | .seqState => if w.toNat < 8 then .ok (seqOp (w.setWidth 3)) else .error .tooWide
  | .initState => if w.toNat < 4 then .ok (initOp (w.setWidth 2)) else .error .tooWide
  | .engState => if w.toNat < 8 then .ok (engOp (w.setWidth 3)) else .error .tooWide
  | .gateState => if w.toNat < 4 then .ok (gateOp (w.setWidth 2)) else .error .tooWide
  | .events =>
    if w.toNat < 16 then
      match eventOps (w.setWidth 4) with
      | [] => .error .noEvent
      | [op] => .ok op
      | _ :: _ :: _ => .error .severalEvents
    else .error .tooWide

/-- A one-byte word whose place is not given. The formats of R93 and R97 share words, so the FIRST row of
spec/opcode_table.json that fits is taken: `seq_state` codes 0 to 5, then `d_state` 6 and 7 (row `ENG.unused`), then
the event words. DESIGN CHOICE (assumption 10). -/
def decodeUnplaced (b : Byte) : Except Reject Instr :=
  if b.toNat < 6 then decode Config.reference .seqState (b.setWidth 10)
  else if b.toNat < 8 then decode Config.reference .engState (b.setWidth 10)
  else decode Config.reference .events (b.setWidth 10)

/-- The decoder over bytes, the first byte the least significant: one byte is a state code or an event word, two
bytes are a bus word, read with the default command values (30 R95). -/
def decodeBytes : List Byte → Except Reject Instr
  | [b] => decodeUnplaced b
  | [lo, hi] =>
    if hi.toNat < 4 then decode Config.reference .busw10 (hi.setWidth 2 ++ lo) else .error .tooWide
  | _ => .error .noFormat

/-- The bytes of a word of `nbits` bits, least significant byte first. -/
def tableBytes (nbits w : Nat) : List Byte :=
  (List.range ((nbits + 7) / 8)).map fun k => BitVec.ofNat 8 (w / 2 ^ (8 * k))

/-- What the decoder reads from an instruction of spec/opcode_table.json, given as its number. -/
def decodeTableWord (nbits w : Nat) : Option Instr :=
  if w < 2 ^ nbits then
    match decodeBytes (tableBytes nbits w) with
    | .ok i => some i
    | .error _ => none
  else none

/-! ## The encoder -/

/-- A word and the place that holds it. -/
structure OpWord where
  format : Format
  bits : BusWord
  deriving DecidableEq, Repr

/-- The display address a set-address operand stands for, none for a row above 3 (44 R224). -/
def AddrOperand.resolve : AddrOperand → Option DdAddr
  | .addr a => some a
  | .rowCol row col => gotoAddr row col

/-- The transaction words a bus operation or pseudo-operation issues, in order; none where 44 R231 gives the call no
meaning, and none for an operation that issues no transaction (44 R221 to R230, 46 R270, R272, 43 R192). -/
def issuedWords (c : Config) : Instr → Option (List TxWord)
  | .clear => some [cmdWord c.cmdClear]
  | .fs4 => some [cmdWord c.cmdFs4]
  | .dispOnCur => some [cmdWord c.cmdDispOnCur]
  | .fs2l4 => some [cmdWord c.cmdFs2l4]
  | .fs2l8 => some [cmdWord c.cmdFs2l8]
  | .setAddr x => x.resolve.map fun a => [setAddrWord c a]
  | .data v => some [dataWord v]
  | .sendcmd b => some [cmdWord b]
  | .puts t => some (putsWords t)
  | .putsAt row col t => putsAtWords c row col t
  | .putint v => some (putsWords (renderInteger v))
  | .putfix v => some (putsWords (renderFixedPoint v))
  | .init => some (initScript c)
  | .seqInit | .seqSample | .seqStep | .seqRefresh | .seqPace | .seqUnused _ => none
  | .initIssue | .initWait | .initReady | .initUnused => none
  | .engIdle | .engSetup | .engEon | .engEhi | .engElo | .engDone | .engUnused _ => none
  | .gateIdle | .gateIssue | .gateWait | .gateDone => none
  | .tick | .dirEdge | .modeEdge | .delayStart => none

/-- A state code as a word of its register (30 R93). -/
def codeWord {n : Nat} (f : Format) (code : BitVec n) : List OpWord := [⟨f, code.setWidth 10⟩]

/-- A word of the event vector (30 R97). -/
def eventWord (bit : Nat) : List OpWord := [⟨.events, BitVec.twoPow 10 bit⟩]

/-- The words of an operation: a state code, an event bit, or the bus words of the transactions it issues. -/
def encode (c : Config) : Instr → List OpWord
  | .seqInit => codeWord .seqState SeqCode.sInit
  | .seqSample => codeWord .seqState SeqCode.sSample
  | .seqStep => codeWord .seqState SeqCode.sStep
  | .seqRefresh => codeWord .seqState SeqCode.sRefresh
  | .seqPace => codeWord .seqState SeqCode.sPace
  | .seqUnused code => codeWord .seqState code
  | .initIssue => codeWord .initState InitCode.iIssue
  | .initWait => codeWord .initState InitCode.iWait
  | .initReady => codeWord .initState InitCode.iReady
  | .initUnused => codeWord .initState (3 : BitVec 2)
  | .engIdle => codeWord .engState EngCode.dIdle
  | .engSetup => codeWord .engState EngCode.dSetup
  | .engEon => codeWord .engState EngCode.dEon
  | .engEhi => codeWord .engState EngCode.dEhi
  | .engElo => codeWord .engState EngCode.dElo
  | .engDone => codeWord .engState EngCode.dDone
  | .engUnused code => codeWord .engState code
  | .gateIdle => codeWord .gateState GateCode.gIdle
  | .gateIssue => codeWord .gateState GateCode.gIssue
  | .gateWait => codeWord .gateState GateCode.gWait
  | .gateDone => codeWord .gateState GateCode.gDone
  | .tick => eventWord 0
  | .dirEdge => eventWord 1
  | .modeEdge => eventWord 2
  | .delayStart => eventWord 3
  | .clear => busWords .clear
  | .fs4 => busWords .fs4
  | .dispOnCur => busWords .dispOnCur
  | .fs2l4 => busWords .fs2l4
  | .fs2l8 => busWords .fs2l8
  | .setAddr x => busWords (.setAddr x)
  | .data v => busWords (.data v)
  | .sendcmd b => busWords (.sendcmd b)
  | .puts t => busWords (.puts t)
  | .putsAt row col t => busWords (.putsAt row col t)
  | .putint v => busWords (.putint v)
  | .putfix v => busWords (.putfix v)
  | .init => busWords .init
where
  /-- The bus words of the issued transactions (30 R91, R101). -/
  busWords (i : Instr) : List OpWord :=
    ((issuedWords c i).getD []).map fun w => ⟨.busw10, w.busWord⟩

/-- The five fixed command bytes differ pairwise and lie outside the set-address row: then each row of 30 R95 has
bytes of its own. The default values do. -/
def Config.distinctCommands (c : Config) : Bool :=
  let fixed := [c.cmdClear, c.cmdFs4, c.cmdDispOnCur, c.cmdFs2l4, c.cmdFs2l8]
  decide (fixed.Pairwise (· ≠ ·)) && fixed.all fun b => b.getLsbD 7 != c.cmdSetAddr.getLsbD 7

/-- The operations that are what their own word decodes to: a set-address operand in its `addr` form, and a generic
command whose byte no row of 30 R95 names. A pseudo-operation of several words has no word of its own. -/
def Instr.canonical (c : Config) : Instr → Bool
  | .setAddr (.rowCol _ _) => false
  | .sendcmd b => busOp c (cmdWord b) == .sendcmd b
  | .puts _ | .putsAt _ _ _ | .putint _ | .putfix _ | .init => false
  | .seqUnused code => decide (5 ≤ code.toNat)
  | .engUnused code => decide (6 ≤ code.toNat)
  | .setAddr (.addr _) | .clear | .fs4 | .dispOnCur | .fs2l4 | .fs2l8 | .data _ => true
  | .seqInit | .seqSample | .seqStep | .seqRefresh | .seqPace => true
  | .initIssue | .initWait | .initReady | .initUnused => true
  | .engIdle | .engSetup | .engEon | .engEhi | .engElo | .engDone => true
  | .gateIdle | .gateIssue | .gateWait | .gateDone => true
  | .tick | .dirEdge | .modeEdge | .delayStart => true

end Sys2Proof
end

