-- ==== Sys2Proof/Machine/Operands.lean ====
section
/-! DEFINITION. The operands the arms read: script words, the step-table entry, the data of one phase
(spec/30_encoding.md R94). Command operands (`SET_ADDR a`, `GOTO r, c`) are resolved in Decode.lean. -/

namespace Sys2Proof.Machine

/-- `INIT_SCRIPT[i_ptr]` (43 R192, R193). Past `INIT_LEN - 1` the spec states no byte: a free value (assumption 6). -/
def initByteAt (c : Config) (ptr : BitVec 2) : Byte :=
  (initBytes c)[ptr.toNat]?.getD (Config.freeInitByte ptr.toNat)

/-- `RENDER(di, mo)[r_ptr]` (45 R252, R253). Past index 18 the spec states no word: a free value (assumption 6). -/
def renderWordAt (c : Config) (di : Direction) (mo : StepMode) (ptr : BitVec 5) : TxWord :=
  (renderScript c di mo)[ptr.toNat]?.getD ⟨Config.freeRenderRs ptr.toNat, Config.freeRenderByte ptr.toNat⟩

/-- `bus_data(byte, nib)`: the whole byte at 8 lines; at 4 the high nibble in phase 0 and the low nibble in phase 1,
both on `lcd_d[7:4]` (43 R191). -/
def busData (w : BusWidth) (byte : Byte) (nib : Bool) : Byte :=
  match w, nib with
  | .eight, _ => byte
  | .four, false => byte.extractLsb' 4 4 ++ 0#4
  | .four, true => byte.extractLsb' 0 4 ++ 0#4

/-- The step-table entry of this iteration, at the index before the update (42 R164, 20 R71). -/
def stepEntry (s : State) : Phase :=
  tableEntry s.cfg s.seq.snapMode s.seq.stepIdx

end Sys2Proof.Machine
end

