-- ==== Sys2Proof/Machine/Signals.lean ====
section
/-! DEFINITION. The combinational signals between the sub-blocks, all of spec/10_state.md R41, as functions of the
registers of one cycle. -/

namespace Sys2Proof.Machine

/-- `tick_event = (pre_cnt == PRESCALE - 1)` (40 R120). -/
def tickEvent (s : State) : Bool := s.timer.preCnt == s.cfg.prescale - 1

/-- `dly_done = dly_busy and (tick_count >= dly_target)`, unsigned (40 R125). -/
def dlyDone (s : State) : Bool :=
  s.timer.dlyBusy && decide (s.timer.dlyTarget.toNat ≤ s.timer.tickCount.toNat)

/-- `accept_d` (41 R143). -/
def acceptD (s : State) : Bool := s.dir.accept

/-- `accept_m` (41 R143). -/
def acceptM (s : State) : Bool := s.mode.accept

/-- `gate_start = (seq_state == S_STEP)` (42 R165). -/
def gateStart (s : State) : Bool := s.seq.state == SeqCode.sStep

/-- `gate_done = (g_state == G_DONE)` (45 R256). -/
def gateDone (s : State) : Bool := s.gate.state == GateCode.gDone

/-- `seq_dly_start = (seq_state == S_REFRESH) and gate_done` (42 R166). -/
def seqDlyStart (s : State) : Bool := s.seq.state == SeqCode.sRefresh && gateDone s

/-- `dbm_dly_start = (d_state == D_EON) or (d_state == D_EHI and dly_done)` (43 R205). -/
def dbmDlyStart (s : State) : Bool :=
  s.eng.state == EngCode.dEon || (s.eng.state == EngCode.dEhi && dlyDone s)

/-- `dly_start` (40 R126). -/
def dlyStart (s : State) : Bool := seqDlyStart s || dbmDlyStart s

/-- `dly_ticks` (40 R126). -/
def dlyTicks (s : State) : TickWord :=
  if seqDlyStart s then s.cfg.paceTicks else s.cfg.settleTicks

/-- `gate_changed` (45 R251). -/
def gateChanged (s : State) : Bool :=
  !s.gate.lastValid || s.gate.lastDir != s.seq.snapDir || s.gate.lastMode != s.seq.snapMode

/-- `gate_tx_start = (g_state == G_ISSUE)` (45 R253). -/
def gateTxStart (s : State) : Bool := s.gate.state == GateCode.gIssue

/-- `gate_word = RENDER(snap_dir, snap_mode)[r_ptr]` (45 R253). -/
def gateWord (s : State) : TxWord := renderWordAt s.cfg s.seq.snapDir s.seq.snapMode s.gate.rPtr

/-- `init_tx_start = (i_state == I_ISSUE)` (43 R193). -/
def initTxStart (s : State) : Bool := s.ini.state == InitCode.iIssue

/-- `init_word = {1'b0, INIT_SCRIPT[i_ptr]}` (43 R193). -/
def initWord (s : State) : TxWord := cmdWord (initByteAt s.cfg s.ini.ptr)

/-- `de_ready = (i_state == I_READY)` (43 R196). -/
def deReady (s : State) : Bool := s.ini.state == InitCode.iReady

/-- `tx_start = init_tx_start or gate_tx_start` (43 R197). -/
def txStart (s : State) : Bool := initTxStart s || gateTxStart s

/-- `tx_word = de_ready ? gate_word : init_word` (43 R197). -/
def txWord (s : State) : TxWord := if deReady s then gateWord s else initWord s

/-- `tx_done = (d_state == D_DONE)` (43 R204). -/
def txDone (s : State) : Bool := s.eng.state == EngCode.dDone

/-- The event vector `EV`: bit 0 `tick_event`, 1 `accept_d`, 2 `accept_m`, 3 `dly_start` (30 R97). -/
def eventVector (s : State) : EventVector :=
  BitVec.ofBool (dlyStart s) ++ (BitVec.ofBool (acceptM s) ++
    (BitVec.ofBool (acceptD s) ++ BitVec.ofBool (tickEvent s)))

end Sys2Proof.Machine
end

