-- ==== Sys2Proof/Machine/Ops.lean ====
section
/-! DEFINITION. The named operations over memory and registers that the arms share.
There is no exception entry and no return from one among them: the core takes no trap and saves nothing
(spec/60_exceptions.md R290, R297, R298). The one transfer of control the spec has is `rst`, `State.reset`-ing
every register: `afterReset` below (spec/70_reset_and_hazards.md R310). -/

namespace Sys2Proof.Machine

/-- Continue with the state of an outcome that is a next state; a fault or a refusal stays what it is. -/
def andThen (r : Result) (f : State → Result) : Result :=
  match r with
  | .next s => f s
  | .fault e => .fault e
  | .refused e => .refused e

/-! ## The display address space (20 R70, R74) -/

/-- Read one cell of `DDRAM`. -/
def Memory.read (m : Memory) (a : Nat) : Byte :=
  match m with
  | [] => Memory.blank
  | c :: rest => if c.1 = a then c.2 else Memory.read rest a

/-- Put a cell at its place by rising address, dropping the cell the address had; a blank cell is not listed. -/
def Memory.insert (m : Memory) (a : Nat) (v : Byte) : Memory :=
  match m with
  | [] => if v = Memory.blank then [] else [(a, v)]
  | c :: rest =>
    if c.1 < a then c :: Memory.insert rest a v
    else if c.1 = a then (if v = Memory.blank then rest else (a, v) :: rest)
    else if v = Memory.blank then c :: rest else (a, v) :: c :: rest

/-- `MemWrite(DDRAM, a, 8, v)`: every 7-bit address exists (20 R70, R79). -/
def Memory.write (m : Memory) (a : DdAddr) (v : Byte) : Memory :=
  m.insert a.toNat v

/-- The memory whose cells 0..127 read as `f` says. -/
def Memory.ofContent (f : Nat → Byte) : Memory :=
  ((List.range 128).map fun a => (a, f a)).filter fun c => c.2 ≠ Memory.blank

/-- Read one cell of the machine's display address space. -/
def readByte (s : State) (a : DdAddr) : Byte := s.display.mem.read a.toNat

/-! ## Transactions -/

/-- Latch a transaction word and start its first phase: the writes of `D_IDLE` with `tx_start = 1` (43 R198). -/
def Engine.accept (e : Engine) (w : TxWord) : Engine :=
  { e with txRs := w.rs, txByte := w.byte, nib := false, state := EngCode.dSetup }

/-- A request with the word `w`: taken in this cycle by an idle engine, ignored in any other state (43 R198).
The one operation behind every bus word. -/
def request (w : TxWord) (s : State) : State :=
  if s.eng.state = EngCode.dIdle then { s with eng := s.eng.accept w } else s

/-- Issue a list of transaction words in order (30 R100, R101): they join the words that wait for the engine.
The one operation behind every pseudo-operation of several words (assumption 8). -/
def issue (ws : List TxWord) (s : State) : State := { s with script := s.script ++ ws }

/-! ## Reset -/

/-- Every register of 10 R36 at its reset value; the parameters and what is outside the core are kept
(70 R310, R314); words that wait for the engine are dropped (assumption 8). -/
def afterReset (s : State) : State :=
  { s with
    timer := .reset, dir := .reset .clockwise, mode := .reset .full, seq := .reset, ini := .reset, eng := .reset,
    gate := .reset, script := [] }

end Sys2Proof.Machine
end

