-- ==== Sys2Proof/Machine/Edges.lean ====
section
/-! DEFINITION. edge_latch_sync: the events `DIR_EDGE` and `MODE_EDGE` (spec/41_edge_latch_sync.md R145, R146). -/

namespace Sys2Proof.Machine

/-- `DIR_EDGE`: `dir_flag <- not dir_flag` (41 R145). -/
def execDirEdge (s : State) : Result :=
  .next { s with dir := { s.dir with flag := toggleDirection s.dir.flag } }

/-- `MODE_EDGE`: `mode_flag <- not mode_flag` (41 R146). -/
def execModeEdge (s : State) : Result :=
  .next { s with mode := { s.mode with flag := toggleMode s.mode.flag } }

end Sys2Proof.Machine
end

