-- ==== Sys2Proof/Machine/Engine.lean ====
section
/-! DEFINITION. The transaction engine of display_bus_multiplexer: one meaning per state arm
(spec/43_display_bus_multiplexer.md R198 to R207). Its pulses are `txDone` and `dbmDlyStart`. -/

namespace Sys2Proof.Machine

/-- `ENG.D_IDLE`: accept a requested transaction (43 R198). -/
def execEngIdle (s : State) : Result :=
  .next { s with eng := if txStart s then s.eng.accept (txWord s) else s.eng }

/-- `ENG.D_SETUP`: drive the select lines and the data of one phase (43 R199). -/
def execEngSetup (s : State) : Result :=
  .next { s with eng := { s.eng with
    lcdRs := s.eng.txRs
    lcdRw := false
    lcdD := busData s.cfg.busWidth s.eng.txByte s.eng.nib
    state := EngCode.dEon } }

/-- `ENG.D_EON`: assert the strobe (43 R200). -/
def execEngEon (s : State) : Result :=
  .next { s with eng := { s.eng with lcdE := true, state := EngCode.dEhi } }

/-- `ENG.D_EHI`: hold the strobe, then deassert it (43 R201). -/
def execEngEhi (s : State) : Result :=
  .next { s with eng := if dlyDone s then { s.eng with lcdE := false, state := EngCode.dElo } else s.eng }

/-- `ENG.D_ELO`: hold the strobe low, then the second phase or the end (43 R202). -/
def execEngElo (s : State) : Result :=
  .next { s with
    eng :=
      if dlyDone s then
        if s.cfg.busWidth.nph = 2 ∧ s.eng.nib = false then { s.eng with nib := true, state := EngCode.dSetup }
        else { s.eng with state := EngCode.dDone }
      else s.eng }

/-- `ENG.D_DONE`: report completion (43 R204). -/
def execEngDone (s : State) : Result :=
  .next { s with eng := { s.eng with state := EngCode.dIdle } }

/-- `ENG.unused`: next state `D_IDLE`, no other write (43 R207, 30 R96). -/
def execEngUnused (s : State) : Result :=
  .next { s with eng := { s.eng with state := EngCode.dIdle } }

end Sys2Proof.Machine
end

