-- ==== Sys2Proof/Machine/Gate.lean ====
section
/-! DEFINITION. display_refresh_gate: one meaning per state arm (spec/45_display_refresh_gate.md R253 to R256). Its
pulses are `gateTxStart`, `gateWord`, `gateDone`. -/

namespace Sys2Proof.Machine

/-- `GATE.G_IDLE` (45 R254). -/
def execGateIdle (s : State) : Result :=
  .next { s with
    gate :=
      if gateStart s then
        if gateChanged s then { s.gate with rPtr := 0, state := GateCode.gIssue }
        else { s.gate with state := GateCode.gDone }
      else s.gate }

/-- `GATE.G_ISSUE` (45 R253). -/
def execGateIssue (s : State) : Result :=
  .next { s with gate := { s.gate with state := GateCode.gWait } }

/-- `GATE.G_WAIT` (45 R255). -/
def execGateWait (s : State) : Result :=
  .next { s with
    gate :=
      if txDone s then
        if s.gate.rPtr.toNat = renderLast then
          { s.gate with
            lastValid := true, lastDir := s.seq.snapDir, lastMode := s.seq.snapMode, state := GateCode.gDone }
        else { s.gate with rPtr := s.gate.rPtr + 1, state := GateCode.gIssue }
      else s.gate }

/-- `GATE.G_DONE` (45 R256). -/
def execGateDone (s : State) : Result :=
  .next { s with gate := { s.gate with state := GateCode.gIdle } }

end Sys2Proof.Machine
end

