-- ==== Sys2Proof/Machine/InitRunner.lean ====
section
/-! DEFINITION. The init runner of display_bus_multiplexer: one meaning per state arm
(spec/43_display_bus_multiplexer.md R193 to R196, R207). Its pulses are `initTxStart`, `initWord`, `deReady`. -/

namespace Sys2Proof.Machine

/-- `INIT.I_ISSUE` (43 R193). -/
def execInitIssue (s : State) : Result :=
  .next { s with ini := { s.ini with state := InitCode.iWait } }

/-- `INIT.I_WAIT` (43 R194). -/
def execInitWait (s : State) : Result :=
  .next { s with
    ini :=
      if txDone s then
        if s.ini.ptr.toNat = initLen s.cfg - 1 then { s.ini with state := InitCode.iReady }
        else { ptr := s.ini.ptr + 1, state := InitCode.iIssue }
      else s.ini }

/-- `INIT.I_READY`: no register written; the state is kept until reset (43 R196). -/
def execInitReady (s : State) : Result := .next s

/-- `INIT.unused`: next state `I_ISSUE`, no other write (43 R207, 30 R96). -/
def execInitUnused (s : State) : Result :=
  .next { s with ini := { s.ini with state := InitCode.iIssue } }

end Sys2Proof.Machine
end

