-- ==== Sys2Proof/Machine/Pseudo.lean ====
section
/-! DEFINITION. The pseudo-operations of several words: each issues its expansion in order (spec/30_encoding.md R101,
spec/44_display_commands.md R229 to R231, spec/46_host_formatting.md). -/

namespace Sys2Proof.Machine

/-- `PUTS t` (44 R229). -/
def execPuts (t : Text) (s : State) : Result := .next (issue (putsWords t) s)

/-- `PUTS_AT r, c, t`; a row above 3 is a model fault and issues nothing (44 R230, R231). -/
def execPutsAt (row col : Nat) (t : Text) (s : State) : Result :=
  match putsAtWords s.cfg row col t with
  | some ws => .next (issue ws s)
  | none => .fault (.gotoRowOutOfRange row)

/-- `PUTINT v` (46 R270). -/
def execPutint (v : Int) (s : State) : Result := .next (issue (putsWords (renderInteger v)) s)

/-- `PUTFIX v` (46 R272). -/
def execPutfix (v : Rat) (s : State) : Result := .next (issue (putsWords (renderFixedPoint v)) s)

/-- `INIT`: the init script (30 R101, 43 R192). -/
def execInit (s : State) : Result := .next (issue (initScript s.cfg) s)

end Sys2Proof.Machine
end

