-- ==== Sys2Proof/Machine/Sequencer.lean ====
section
/-! DEFINITION. stepper_sequencer: one meaning per state arm (spec/42_stepper_sequencer.md). An arm writes its own
registers only; the pulses it drives are the signals `gateStart` and `seqDlyStart`. -/

namespace Sys2Proof.Machine

/-- `SEQ.S_INIT` (42 R160). -/
def execSeqInit (s : State) : Result :=
  .next { s with seq := { s.seq with state := if deReady s then SeqCode.sSample else s.seq.state } }

/-- `SEQ.S_SAMPLE`: the flag snapshot (42 R163). -/
def execSeqSample (s : State) : Result :=
  .next { s with seq := { s.seq with
    snapDir := s.dir.flag, snapMode := s.mode.flag, state := SeqCode.sStep } }

/-- `SEQ.S_STEP`: one motor step (42 R164, R162). -/
def execSeqStep (s : State) : Result :=
  .next { s with seq := { s.seq with
    motorPhase := stepEntry s
    stepIdx := nextIdx s.seq.stepIdx s.seq.snapDir s.seq.snapMode
    state := SeqCode.sRefresh } }

/-- `SEQ.S_REFRESH` (42 R166). -/
def execSeqRefresh (s : State) : Result :=
  .next { s with seq := { s.seq with state := if gateDone s then SeqCode.sPace else s.seq.state } }

/-- `SEQ.S_PACE` (42 R167). -/
def execSeqPace (s : State) : Result :=
  .next { s with seq := { s.seq with state := if dlyDone s then SeqCode.sSample else s.seq.state } }

/-- `SEQ.unused`: next state `S_INIT`, no other write (42 R168, 30 R96). -/
def execSeqUnused (s : State) : Result :=
  .next { s with seq := { s.seq with state := SeqCode.sInit } }

end Sys2Proof.Machine
end

