-- ==== Sys2Proof/Machine/Timer.lean ====
section
/-! DEFINITION. tick_timer: the events `TICK` and `DELAY_START`, and what the timer writes in a cycle without them
(spec/40_tick_timer.md). -/

namespace Sys2Proof.Machine

/-- `TICK`: `pre_cnt <- 0`, `tick_count <- (tick_count + 1) mod 2^TICK_W` (40 R120, R121, R122). In a cycle that also
starts a delay, `DELAY_START` wins on `tick_count` (R122; `mergeTimer`). -/
def execTick (s : State) : Result :=
  .next { s with timer := { s.timer with preCnt := 0, tickCount := s.timer.tickCount + 1 } }

/-- `DELAY_START`: `dly_busy <- 1`, `dly_target <- dly_ticks`, `tick_count <- 0` (40 R122, R124, R126). -/
def execDelayStart (s : State) : Result :=
  .next { s with timer := { s.timer with dlyBusy := true, dlyTarget := dlyTicks s, tickCount := 0 } }

/-- The timer after a cycle with neither event: `pre_cnt + 1` (40 R121, modulo its width, 00 R11), and `dly_busy`
cleared by `dly_done` (40 R124). -/
def idleTimer (s : State) : TickTimer :=
  { s.timer with
    preCnt := (s.timer.preCnt + 1) % 2 ^ s.cfg.preW
    dlyBusy := s.timer.dlyBusy && !dlyDone s }

/-- The timer after a cycle, from the states `t` and `d` that `TICK` and `DELAY_START` alone would give: each register
from the event that writes it, `DELAY_START` first on `tick_count` (40 R121, R122, R124; 60 R295). -/
def mergeTimer (s t d : State) : TickTimer where
  preCnt := if tickEvent s then t.timer.preCnt else (idleTimer s).preCnt
  tickCount :=
    if dlyStart s then d.timer.tickCount else if tickEvent s then t.timer.tickCount else (idleTimer s).tickCount
  dlyBusy := if dlyStart s then d.timer.dlyBusy else (idleTimer s).dlyBusy
  dlyTarget := if dlyStart s then d.timer.dlyTarget else (idleTimer s).dlyTarget

end Sys2Proof.Machine
end

