-- ==== Sys2Proof/Machine/Transactions.lean ====
section
/-! DEFINITION. The bus operations: each hands one transaction word to the engine (spec/44_display_commands.md
R221 to R228, spec/43_display_bus_multiplexer.md R198). -/

namespace Sys2Proof.Machine

/-- `CLEAR`, `CLR`: issue `CMD_CLEAR` (44 R222). -/
def execClear (s : State) : Result := .next (request (cmdWord s.cfg.cmdClear) s)

/-- `FS4`: issue `CMD_FS4` (44 R223). -/
def execFs4 (s : State) : Result := .next (request (cmdWord s.cfg.cmdFs4) s)

/-- `DISP_ON_CUR`: issue `CMD_DISP_ON_CUR` (44 R228). -/
def execDispOnCur (s : State) : Result := .next (request (cmdWord s.cfg.cmdDispOnCur) s)

/-- `FS2L_4`: issue `CMD_FS2L_4` (44 R225). -/
def execFs2l4 (s : State) : Result := .next (request (cmdWord s.cfg.cmdFs2l4) s)

/-- `FS2L_8`: issue `CMD_FS2L_8` (44 R227). -/
def execFs2l8 (s : State) : Result := .next (request (cmdWord s.cfg.cmdFs2l8) s)

/-- `SENDCMD c`: issue the command byte unchanged (44 R221). -/
def execSendcmd (c : Byte) (s : State) : Result := .next (request (cmdWord c) s)

/-- `DATA v`, `PUTC v`: issue the character code unchanged (44 R226). -/
def execData (v : Byte) (s : State) : Result := .next (request (dataWord v) s)

/-- `SET_ADDR a`, `GOTO r, c`: issue `CMD_SET_ADDR | a`; a row above 3 is a model fault and issues nothing
(44 R224, R231). -/
def execSetAddr (x : AddrOperand) (s : State) : Result :=
  match x with
  | .addr a => .next (request (setAddrWord s.cfg a) s)
  | .rowCol row col =>
    match gotoAddr row col with
    | some a => .next (request (setAddrWord s.cfg a) s)
    | none => .fault (.gotoRowOutOfRange row)

end Sys2Proof.Machine
end

