-- ==== Sys2Proof/Machine/Dispatch.lean ====
section
/-! DEFINITION. One arm per operation: its register writes, read from the registers of one cycle (spec/00_scope.md
R10, R12). -/

namespace Sys2Proof.Machine

def exec (i : Instr) (s : State) : Host.Outcome State Fault Refusal :=
  match i with
  | .clear => Sys2Proof.Machine.execClear s
  | .fs4 => Sys2Proof.Machine.execFs4 s
  | .dispOnCur => Sys2Proof.Machine.execDispOnCur s
  | .fs2l4 => Sys2Proof.Machine.execFs2l4 s
  | .fs2l8 => Sys2Proof.Machine.execFs2l8 s
  | .setAddr x => Sys2Proof.Machine.execSetAddr x s
  | .data v => Sys2Proof.Machine.execData v s
  | .seqInit => Sys2Proof.Machine.execSeqInit s
  | .seqSample => Sys2Proof.Machine.execSeqSample s
  | .seqStep => Sys2Proof.Machine.execSeqStep s
  | .seqRefresh => Sys2Proof.Machine.execSeqRefresh s
  | .seqPace => Sys2Proof.Machine.execSeqPace s
  | .initIssue => Sys2Proof.Machine.execInitIssue s
  | .initWait => Sys2Proof.Machine.execInitWait s
  | .initReady => Sys2Proof.Machine.execInitReady s
  | .engIdle => Sys2Proof.Machine.execEngIdle s
  | .engSetup => Sys2Proof.Machine.execEngSetup s
  | .engEon => Sys2Proof.Machine.execEngEon s
  | .engEhi => Sys2Proof.Machine.execEngEhi s
  | .engElo => Sys2Proof.Machine.execEngElo s
  | .engDone => Sys2Proof.Machine.execEngDone s
  | .gateIdle => Sys2Proof.Machine.execGateIdle s
  | .gateIssue => Sys2Proof.Machine.execGateIssue s
  | .gateWait => Sys2Proof.Machine.execGateWait s
  | .gateDone => Sys2Proof.Machine.execGateDone s
  | .seqUnused _ => Sys2Proof.Machine.execSeqUnused s
  | .initUnused => Sys2Proof.Machine.execInitUnused s
  | .engUnused _ => Sys2Proof.Machine.execEngUnused s
  | .tick => Sys2Proof.Machine.execTick s
  | .dirEdge => Sys2Proof.Machine.execDirEdge s
  | .modeEdge => Sys2Proof.Machine.execModeEdge s
  | .delayStart => Sys2Proof.Machine.execDelayStart s
  | .sendcmd c => Sys2Proof.Machine.execSendcmd c s
  | .puts t => Sys2Proof.Machine.execPuts t s
  | .putsAt row col t => Sys2Proof.Machine.execPutsAt row col t s
  | .putint v => Sys2Proof.Machine.execPutint v s
  | .putfix v => Sys2Proof.Machine.execPutfix v s
  | .init => Sys2Proof.Machine.execInit s

end Sys2Proof.Machine
end

