-- ==== Sys2Proof/Machine/Display.lean ====
section
/-! DEFINITION. What stands outside the core and only watches its pins: the receiver of spec/30_encoding.md R102 and
the display observer of spec/20_memory.md R74. -/

namespace Sys2Proof.Machine

/-- The observer's reaction to one completed transaction (20 R74). -/
def Display.react (c : Config) (w : TxWord) (d : Display) : Display :=
  if w.rs then { d with mem := d.mem.write d.ac w.byte, ac := d.ac + 1 }
  else if w.byte = c.cmdClear then { d with mem := [], ac := 0 }
  else if w.byte.getLsbD 7 then { d with ac := w.byte.setWidth 7 }
  else d

/-- Display content that is any value: free bytes and a free address counter, fresh for the event `n` (93 U15). -/
def Display.anyContent (n : Nat) (d : Display) : Display :=
  { d with mem := Memory.ofContent (Config.freeDisplayByte n), ac := Config.freeDisplayAddr n }

/-- A bus word has been received whole: it is recorded, and the observer reacts if it is a write (20 R74). After a
lost phase the content stays any value (70 R327). -/
def Display.complete (c : Config) (n : Nat) (w : BusWord) (d : Display) : Display :=
  let d' := { d with lastWord := some w }
  if d.desync then d'.anyContent n
  else if w.getLsbD 8 then d'
  else d'.react c (txOfBus w)

/-- The `NIB6` of the pins (30 R92). -/
def pinNibble (e : Engine) : Nib6 :=
  BitVec.ofBool e.lcdRs ++ (BitVec.ofBool e.lcdRw ++ e.lcdD.extractLsb' 4 4)

/-- One strobe with the pin levels of `e`: a whole word at 8 lines; at 4 the first strobe is kept and the second
completes `rs, rw, d0[7:4], d1[7:4]` (30 R92, R102). -/
def Display.strobe (c : Config) (n : Nat) (e : Engine) (d : Display) : Display :=
  match c.busWidth with
  | .eight => d.complete c n (BitVec.ofBool e.lcdRs ++ (BitVec.ofBool e.lcdRw ++ e.lcdD))
  | .four =>
    match d.half with
    | none => { d with half := some (pinNibble e) }
    | some h => { d with half := none }.complete c n (h ++ e.lcdD.extractLsb' 4 4)

/-- The observer over one clock edge, from the pins `e` of this cycle to the pins `e'` of the next: a strobe is
complete on the falling edge of `lcd_e`, with the lines as they are while it is 1 (30 R102). -/
def Display.observe (c : Config) (n : Nat) (e e' : Engine) (d : Display) : Display :=
  if e.lcdE && !e'.lcdE then d.strobe c n e else d

/-- `rst` and the observer: the receiver counts strobes afresh from the reset (30 R99); a phase already received makes
the content any value (70 R314, R327, 93 U15). -/
def Display.onReset (n : Nat) (d : Display) : Display :=
  if d.half.isSome then { d with half := none, desync := true }.anyContent n else d

end Sys2Proof.Machine
end

