-- ==== Sys2Proof/Machine/Cycle.lean ====
section
/-! DEFINITION. One clock cycle: which operations run in it, and how their register writes form the registers of the
next cycle (spec/10_state.md R42, spec/00_scope.md R10, R13). Every operation reads the registers of this cycle; each
register is taken from the operation of its owner (10 R36), so no order among them matters. -/

namespace Sys2Proof.Machine

/-- The input levels of this cycle: the scheduled ones, or a free draw (10 R31, 60 R306; assumption 3). -/
def nextInputs (s : State) : Inputs :=
  match s.inputs with
  | i :: _ => i
  | [] => ⟨Config.freeRst s.cycle, Config.freeDirBtnN s.cycle, Config.freeModeBtnN s.cycle⟩

/-- A waiting word of a pseudo-operation goes to the engine in a cycle in which the engine is idle and neither
requester of the core asks (assumption 8). With no waiting word there is none, and the cycle is that of 10 R42. -/
def hostWord (s : State) : Option TxWord :=
  if s.eng.state = EngCode.dIdle ∧ txStart s = false then s.script.head? else none

/-- The engine's operation of this cycle: the bus operation of a waiting word it takes, else the arm its state
register selects (00 R10, 30 R95, 43 R198). -/
def engineOp (s : State) : Instr :=
  match hostWord s with
  | some w => busOp s.cfg w
  | none => engOp s.eng.state

/-- An event's operation takes effect in the cycles that have the event (30 R97). The event selects between the
operation's state and the old one, so that an event that rests on an open value still leaves the outcome in sight. -/
def execWhen (event : Bool) (i : Instr) (s : State) : Result :=
  andThen (exec i s) fun t => .next (if event then t else s)

/-- The registers of the next cycle, from what each operation of this cycle alone gives: the arms of the sequencer
`sq`, init runner `ir`, engine `en` and gate `ga`, and the events `tk` (TICK), `ds` (DELAY_START), `de` (DIR_EDGE),
`me` (MODE_EDGE). -/
def mergeCycle (i : Inputs) (s sq ir en ga tk ds de me : State) : State :=
  { s with
    timer := mergeTimer s tk ds
    dir := { s.dir.sample s.cfg.debounceCycles i.dirBtnN with flag := de.dir.flag }
    mode := { s.mode.sample s.cfg.debounceCycles i.modeBtnN with flag := me.mode.flag }
    seq := sq.seq
    ini := ir.ini
    eng := en.eng
    gate := ga.gate
    display := s.display.observe s.cfg s.cycle s.eng en.eng
    script := if (hostWord s).isSome then s.script.tail else s.script
    inputs := s.inputs.tail
    cycle := s.cycle + 1 }

/-- A cycle with `rst = 0` (10 R42). -/
def runCycle (i : Inputs) (s : State) : Result :=
  andThen (exec (seqOp s.seq.state) s) fun sq =>
  andThen (exec (initOp s.ini.state) s) fun ir =>
  andThen (exec (engineOp s) s) fun en =>
  andThen (exec (gateOp s.gate.state) s) fun ga =>
  andThen (execWhen (tickEvent s) .tick s) fun tk =>
  andThen (execWhen (dlyStart s) .delayStart s) fun ds =>
  andThen (execWhen (acceptD s) .dirEdge s) fun de =>
  andThen (execWhen (acceptM s) .modeEdge s) fun me =>
  .next (mergeCycle i s sq ir en ga tk ds de me)

/-- A cycle with `rst = 1`: every register to its reset value, whatever the rules would write (70 R310). The pins fall
to their reset levels, which the observer outside sees (70 R314). -/
def resetCycle (s : State) : State :=
  { afterReset s with
    display := (s.display.observe s.cfg s.cycle s.eng .reset).onReset s.cycle
    inputs := s.inputs.tail
    cycle := s.cycle + 1 }

/-! ## Placing an operation where the next cycle takes it -/

/-- Wait for a transaction: engine and gate idle, the init runner ready (so that the core itself asks for none), the
words `ws` waiting. -/
def placeWords (ws : List TxWord) (s : State) : State :=
  { s with
    ini := { s.ini with state := InitCode.iReady }
    eng := { s.eng with state := EngCode.dIdle }
    gate := { s.gate with state := GateCode.gIdle }
    script := ws }

/-- Select a state code of the sequencer. -/
def placeSeq (code : BitVec 3) (s : State) : State := { s with seq := { s.seq with state := code } }
/-- Select a state code of the init runner. -/
def placeInit (code : BitVec 2) (s : State) : State := { s with ini := { s.ini with state := code } }
/-- Select a state code of the engine, with no word waiting. -/
def placeEng (code : BitVec 3) (s : State) : State := { s with eng := { s.eng with state := code }, script := [] }
/-- Select a state code of the refresh gate. -/
def placeGate (code : BitVec 2) (s : State) : State := { s with gate := { s.gate with state := code } }
/-- A latch that sees an accepted falling edge in this cycle (41 R142, R143). -/
def placeEdge {α : Type} (l : EdgeLatch α) : EdgeLatch α := { l with prev := true, sync1 := false, lock := 0 }

/-- The state in which the very next cycle runs the operation `i`: the register or the waiting word that selects it is
set, `rst` and the buttons are idle in that cycle (assumption 11). -/
def placeOp (i : Instr) (s : State) : State :=
  let s := { s with inputs := Inputs.idle :: s.inputs.tail }
  match i with
  | .seqInit => placeSeq SeqCode.sInit s
  | .seqSample => placeSeq SeqCode.sSample s
  | .seqStep => placeSeq SeqCode.sStep s
  | .seqRefresh => placeSeq SeqCode.sRefresh s
  | .seqPace => placeSeq SeqCode.sPace s
  | .seqUnused code => placeSeq code s
  | .initIssue => placeInit InitCode.iIssue s
  | .initWait => placeInit InitCode.iWait s
  | .initReady => placeInit InitCode.iReady s
  | .initUnused => placeInit 3 s
  | .engIdle => placeEng EngCode.dIdle s
  | .engSetup => placeEng EngCode.dSetup s
  | .engEon => placeEng EngCode.dEon s
  | .engEhi => placeEng EngCode.dEhi s
  | .engElo => placeEng EngCode.dElo s
  | .engDone => placeEng EngCode.dDone s
  | .engUnused code => placeEng code s
  | .gateIdle => placeGate GateCode.gIdle s
  | .gateIssue => placeGate GateCode.gIssue s
  | .gateWait => placeGate GateCode.gWait s
  | .gateDone => placeGate GateCode.gDone s
  | .tick => { s with timer := { s.timer with preCnt := s.cfg.prescale - 1 } }
  | .dirEdge => { s with dir := placeEdge s.dir }
  | .modeEdge => { s with mode := placeEdge s.mode }
  | .delayStart => placeEng EngCode.dEon s
  | .clear => placeWords ((issuedWords s.cfg .clear).getD []) s
  | .fs4 => placeWords ((issuedWords s.cfg .fs4).getD []) s
  | .dispOnCur => placeWords ((issuedWords s.cfg .dispOnCur).getD []) s
  | .fs2l4 => placeWords ((issuedWords s.cfg .fs2l4).getD []) s
  | .fs2l8 => placeWords ((issuedWords s.cfg .fs2l8).getD []) s
  | .setAddr x => placeWords ((issuedWords s.cfg (.setAddr x)).getD []) s
  | .data v => placeWords ((issuedWords s.cfg (.data v)).getD []) s
  | .sendcmd c => placeWords ((issuedWords s.cfg (.sendcmd c)).getD []) s
  | .puts t => placeWords ((issuedWords s.cfg (.puts t)).getD []) s
  | .putsAt row col t => placeWords ((issuedWords s.cfg (.putsAt row col t)).getD []) s
  | .putint v => placeWords ((issuedWords s.cfg (.putint v)).getD []) s
  | .putfix v => placeWords ((issuedWords s.cfg (.putfix v)).getD []) s
  | .init => placeWords ((issuedWords s.cfg .init).getD []) s

end Sys2Proof.Machine
end

