-- ==== Sys2Proof/Machine/Step.lean ====
section
/-! DEFINITION. One step of the machine is one rising clock edge (spec/00_scope.md R9, spec/10_state.md R42). -/

namespace Sys2Proof.Machine

/-- One clock cycle. A configuration that fails a constraint of 00 R7 is refused; `rst` has priority over every rule
(70 R310). -/
def step (s : State) : Host.Outcome State Fault Refusal :=
  if s.cfg.valid then
    if (nextInputs s).rst then .next (resetCycle s) else runCycle (nextInputs s) s
  else .refused .badConfiguration

/-- `s` with the operation that `nbits` and `w` encode placed where the next step takes its operations from: the
state register, event or waiting transaction word that selects it. A word the decoder rejects selects nothing. -/
def State.withFetchWord (s : State) (nbits w : Nat) : State :=
  match decodeTableWord nbits w with
  | some i => placeOp i s
  | none => s

end Sys2Proof.Machine
end

