-- ==== Sys2Proof/Machine/Ports.lean ====
section
/-! DEFINITION. The output ports (spec/10_state.md R30, R32): each shows the register of its name. -/

namespace Sys2Proof.Machine

/-- The output port values of one cycle (10 R30). -/
structure Outputs where
  motorPhase : Phase
  lcdE : Bool
  lcdRs : Bool
  lcdRw : Bool
  lcdD : Byte
  tickCount : TickWord
  deriving DecidableEq, Repr

/-- What the core shows in a cycle (10 R32). -/
def outputs (s : State) : Outputs where
  motorPhase := s.seq.motorPhase
  lcdE := s.eng.lcdE
  lcdRs := s.eng.lcdRs
  lcdRw := s.eng.lcdRw
  lcdD := s.eng.lcdD
  tickCount := s.timer.tickCount

end Sys2Proof.Machine
end

