-- ==== Sys2Proof/Safety.lean ====
section
/-! DEFINITION. The terms in which statements about the machine are made: legal register values (spec/10_state.md R38),
and the invariant of a running core, which rules out the states no run reaches (R43, R44, R203, R206). -/

namespace Sys2Proof.Machine

/-- The outcome is a next state. -/
def Result.isNext : Result → Bool
  | .next _ => true
  | .fault _ => false
  | .refused _ => false

/-! ## What an operation leaves as it was, owner by owner (10 R36) -/

/-- The timer's registers as before. -/
def sameTimer (s t : State) : Prop := t.timer = s.timer
/-- Both edge latches as before. -/
def sameLatches (s t : State) : Prop := t.dir = s.dir ∧ t.mode = s.mode
/-- The sequencer's registers as before. -/
def sameSeq (s t : State) : Prop := t.seq = s.seq
/-- The display bus multiplexer's registers, init runner and engine, as before. -/
def sameBus (s t : State) : Prop := t.ini = s.ini ∧ t.eng = s.eng
/-- The refresh gate's registers as before. -/
def sameGate (s t : State) : Prop := t.gate = s.gate
/-- Everything that is no register of the core as before: the parameters, the waiting words, the inputs, and every
cell of the display address space. -/
def sameOutside (s t : State) : Prop :=
  t.cfg = s.cfg ∧ t.script = s.script ∧ t.inputs = s.inputs ∧ t.cycle = s.cycle ∧
    t.display.ac = s.display.ac ∧ t.display.half = s.display.half ∧ t.display.lastWord = s.display.lastWord ∧
    t.display.desync = s.display.desync ∧ ∀ a, readByte t a = readByte s a

/-- The legal values of the registers (10 R38). -/
structure LegalRegisters (s : State) : Prop where
  preCnt : s.timer.preCnt < s.cfg.prescale
  lockD : s.dir.lock ≤ s.cfg.debounceCycles
  lockM : s.mode.lock ≤ s.cfg.debounceCycles
  seqState : s.seq.state.toNat ≤ 4
  iState : s.ini.state.toNat ≤ 2
  iPtr : s.ini.ptr.toNat < initLen s.cfg
  dState : s.eng.state.toNat ≤ 5
  rPtr : s.gate.rPtr.toNat ≤ renderLast

/-- Which state codes go together in a running core (10 R43, R44; 43 R193, R194; 45 R250). -/
structure Handshake (s : State) : Prop where
  /-- The gate runs exactly while the sequencer waits for it. -/
  gateRuns : s.gate.state ≠ GateCode.gIdle ↔ s.seq.state = SeqCode.sRefresh
  /-- The sequencer waits for the init script. -/
  initFirst : s.ini.state ≠ InitCode.iReady → s.seq.state = SeqCode.sInit
  /-- The init runner asks only an idle engine. -/
  initAsksIdle : s.ini.state = InitCode.iIssue → s.eng.state = EngCode.dIdle
  /-- While the init runner waits, its transaction is in flight. -/
  initWaits : s.ini.state = InitCode.iWait → s.eng.state ≠ EngCode.dIdle
  /-- After the init script, a transaction is in flight exactly while the gate waits for it. -/
  gateWaits : s.ini.state = InitCode.iReady → (s.eng.state ≠ EngCode.dIdle ↔ s.gate.state = GateCode.gWait)

/-- Whose delay runs, and how far it is (40 R124 to R126; 10 R43). -/
structure DelayChannel (s : State) : Prop where
  busy : s.timer.dlyBusy = true ↔
    s.eng.state = EngCode.dEhi ∨ s.eng.state = EngCode.dElo ∨ s.seq.state = SeqCode.sPace
  notPast : s.timer.dlyBusy = true → s.timer.tickCount.toNat ≤ s.timer.dlyTarget.toNat
  hold : s.eng.state = EngCode.dEhi ∨ s.eng.state = EngCode.dElo → s.timer.dlyTarget = s.cfg.settleTicks
  pace : s.seq.state = SeqCode.sPace → s.timer.dlyTarget = s.cfg.paceTicks

/-- The transaction word the engine has latched. -/
def flightWord (s : State) : TxWord := ⟨s.eng.txRs, s.eng.txByte⟩

/-- The display lines (43 R199 to R203; 10 R37). -/
structure DisplayLines (s : State) : Prop where
  strobe : s.eng.lcdE = true ↔ s.eng.state = EngCode.dEhi
  writeOnly : s.eng.lcdRw = false
  lowLines : s.cfg.busWidth = .four → s.eng.lcdD.extractLsb' 0 4 = 0#4
  onePhase : s.cfg.busWidth = .eight → s.eng.nib = false
  /-- From `D_EON` to `D_DONE` the lines carry the phase of the latched word. -/
  carried : s.eng.state = EngCode.dEon ∨ s.eng.state = EngCode.dEhi ∨ s.eng.state = EngCode.dElo ∨
      s.eng.state = EngCode.dDone →
    s.eng.lcdRs = s.eng.txRs ∧ s.eng.lcdD = busData s.cfg.busWidth s.eng.txByte s.eng.nib

/-- The word in flight is the requester's (43 R193, R198; 45 R253). -/
structure WordInFlight (s : State) : Prop where
  ofInit : s.ini.state = InitCode.iWait → flightWord s = initWord s
  ofGate : s.gate.state = GateCode.gWait → flightWord s = gateWord s

/-- The first phase of the latched word as a receiver takes it (30 R92). -/
def Engine.firstNibble (e : Engine) : Nib6 :=
  BitVec.ofBool e.txRs ++ (0#1 ++ e.txByte.extractLsb' 4 4)

/-- What a receiver that counts strobes from the reset holds, by the engine's registers: at 4 lines the first phase,
from its falling strobe to that of the second (30 R99, R102). -/
def Engine.heldNibble (w : BusWidth) (e : Engine) : Option Nib6 :=
  match w, e.nib with
  | .eight, _ => none
  | .four, false => if e.state = EngCode.dElo then some e.firstNibble else none
  | .four, true =>
    if e.state = EngCode.dSetup ∨ e.state = EngCode.dEon ∨ e.state = EngCode.dEhi then some e.firstNibble else none

/-- The invariant of a running core: a configuration R7 allows, no host word waiting (10 R41 gives the core no port for
one), and the five groups above; the receiver is in step with the engine, the display memory in canonical form. -/
structure CoreInv (s : State) : Prop where
  config : s.cfg.valid = true
  noHost : s.script = []
  legal : LegalRegisters s
  handshake : Handshake s
  delay : DelayChannel s
  lines : DisplayLines s
  flight : WordInFlight s
  receiver : s.display.half = s.eng.heldNibble s.cfg.busWidth
  memory : s.display.mem.wf

/-- The next `n` cycles have `rst = 0`, as scheduled. -/
def NoResetFor (n : Nat) (s : State) : Prop :=
  n ≤ s.inputs.length ∧ ∀ i ∈ s.inputs.take n, i.rst = false

/-- The outcome `n` cycles later: `n` steps, stopping at the first fault or refusal. -/
def after : Nat → State → Result
  | 0, s => .next s
  | n + 1, s => andThen (step s) (after n)

/-- `T`, the transaction time at `PRESCALE = 1` (43 R206). -/
def transactionTime (c : Config) : Nat := c.busWidth.nph * (2 * c.settleTicks.toNat + 4) + 1

/-- The state code of the engine `o` cycles into a phase at `PRESCALE = 1`, for a hold of `n` ticks (43 R206). -/
def phaseCode (n o : Nat) : BitVec 3 :=
  if o = 0 then EngCode.dSetup else if o = 1 then EngCode.dEon else if o < n + 3 then EngCode.dEhi else EngCode.dElo

/-- `s` with the word `rs`, `byte` latched and its first phase begun: what `ENG.D_IDLE` writes (43 R198). -/
def takes (rs : Bool) (byte : Byte) (s : State) : State :=
  { s with eng := { s.eng with txRs := rs, txByte := byte, nib := false, state := EngCode.dSetup } }

/-! ## The two edge latches, one predicate for both instances (41, introduction) -/

/-- What one latch does in a cycle with `rst = 0` (41 R140 to R143, R145, R146): `latch` is the instance, `btn` its
button, `toggled` the other value of its flag. -/
def LatchRule {α : Type} (latch : State → EdgeLatch α) (btn : Inputs → Bool) (toggled : α → α) : Prop :=
  ∀ s : State, s.cfg.valid = true → (nextInputs s).rst = false → ∃ t, step s = .next t ∧
    (latch t).sync0 = btn (nextInputs s) ∧ (latch t).sync1 = (latch s).sync0 ∧ (latch t).prev = (latch s).sync1 ∧
    ((latch s).prev = true ∧ (latch s).sync1 = false ∧ (latch s).lock = 0 →
      (latch t).flag = toggled (latch s).flag) ∧
    (¬((latch s).prev = true ∧ (latch s).sync1 = false ∧ (latch s).lock = 0) → (latch t).flag = (latch s).flag)

/-- What the lockout of one latch does (41 R144): its register, the `n`-th cycle after an accepted edge (ignored inside the
lockout, the first fall after it accepted), and two falls. -/
def LockoutRule {α : Type} (latch : State → EdgeLatch α) : Prop :=
  (∀ s : State, s.cfg.valid = true → (nextInputs s).rst = false → ∃ t, step s = .next t ∧
    (latch t).lock =
      if (latch s).accept = true then s.cfg.debounceCycles else if (latch s).lock > 0 then (latch s).lock - 1 else 0) ∧
  (∀ (s : State) (n : Nat), s.cfg.valid = true → (latch s).accept = true → NoResetFor n s → 1 ≤ n →
    (n ≤ s.cfg.debounceCycles → ∃ t, after n s = .next t ∧ (latch t).accept = false) ∧
    (s.cfg.debounceCycles < n →
      (∀ m t, s.cfg.debounceCycles < m → m < n → after m s = .next t → (latch t).fall = false) →
      ∃ t, after n s = .next t ∧ (latch t).accept = (latch t).fall)) ∧
  (∀ s t : State, (latch s).fall = true → step s = .next t → (latch t).fall = false)

/-- A press, seen from the cycle `n` in which its low level is first sampled, toggles the flag in cycle `n + 3`, if no
lockout runs in cycle `n + 2` (41 R147). -/
def LatencyRule {α : Type} (latch : State → EdgeLatch α) (btn : Inputs → Bool) (toggled : α → α) : Prop :=
  ∀ s : State, s.cfg.valid = true → NoResetFor 3 s → (latch s).sync0 = true → btn (nextInputs s) = false →
    ∃ u t, after 2 s = .next u ∧ after 3 s = .next t ∧
      ((latch u).lock = 0 → (latch t).flag = toggled (latch u).flag)

/-! ## The display content contract (45 R257) -/

/-- `DDRAM` holds the two label lines of `(di, mo)` and spaces everywhere else (45 R257, bit-exact). -/
def Display.shows (d : Display) (di : Direction) (mo : StepMode) : Prop :=
  ∀ a, a < 128 → d.mem.read a =
    if a ≤ 0x06 then (dirLabel di).getD a 0x20
    else if 0x40 ≤ a ∧ a ≤ 0x48 then (modeLabel mo).getD (a - 0x40) 0x20
    else 0x20

/-- The observer after a list of transactions (20 R74). -/
def Display.reactAll (c : Config) (ws : List TxWord) (d : Display) : Display :=
  ws.foldl (fun d w => d.react c w) d

/-- The command values for which the observer tells the commands apart as 20 R74 does (it reads set-address as
`byte[7] == 1`, not as `CMD_SET_ADDR`). The defaults are such values. -/
def observable (c : Config) : Bool :=
  c.cmdSetAddr == 0x80#8 && !c.cmdClear.getLsbD 7

/-- How many words of the render script the display has received (45 R253, R255; 43 R202): in `G_WAIT` the word at
`r_ptr` has arrived once its last strobe has fallen. -/
def wordsShown (s : State) : Nat :=
  if s.gate.state = GateCode.gWait ∧
      (s.eng.state = EngCode.dDone ∨ (s.eng.state = EngCode.dElo ∧ (s.cfg.busWidth = .four → s.eng.nib = true)))
  then s.gate.rPtr.toNat + 1 else s.gate.rPtr.toNat

/-- The display content contract in every cycle: while the gate renders, the display stands where the words sent so far
put it; otherwise it shows the pair last rendered. Void after a reset inside a transaction (70 R327). -/
structure DisplayContract (s : State) : Prop where
  /-- Nothing is rendered before the init script has ended. -/
  nothingYet : s.ini.state ≠ InitCode.iReady → s.gate.lastValid = false
  rendering : observable s.cfg = true → s.display.desync = false →
    s.gate.state = GateCode.gIssue ∨ s.gate.state = GateCode.gWait →
    ∃ d : Display, d.reactAll s.cfg ((renderScript s.cfg s.seq.snapDir s.seq.snapMode).take (wordsShown s)) =
      { d with mem := s.display.mem, ac := s.display.ac }
  rendered : observable s.cfg = true → s.display.desync = false → s.gate.lastValid = true →
    s.gate.state = GateCode.gIdle ∨ s.gate.state = GateCode.gDone →
    s.display.shows s.gate.lastDir s.gate.lastMode

end Sys2Proof.Machine
end

