-- ==== Sys2Proof/Certificates/Slice0/Obligations.lean ====
section
/-! DEFINITION. The statements for the provers. Rules are spec/<file>.md R<n>; a docstring names the assumption log
entry where a statement rests on the model's own choice. -/

section Statements
open Sys2Proof Sys2Proof.Machine

/-! ## Encodings (30) -/

/-- 30 R90 to R97: the word of a canonical operation decodes to that operation. The two premises on the parameters say
that 00 R7 holds and that the command bytes are told apart; the default ones are. -/
def Obligations.DecodeEncodeRoundTrip : Prop :=
  ∀ (c : Config) (i : Instr), c.valid = true → c.distinctCommands = true → i.canonical c = true →
    ∃ w : OpWord, encode c i = [w] ∧ decode c w.format w.bits = .ok i

/-- 30 R90 to R97: whatever the decoder accepts, in any place, is the encoding of what it answers: each word has one
meaning. -/
def Obligations.DecodedWordReencodes : Prop :=
  ∀ (c : Config) (f : Format) (w : BusWord) (i : Instr), c.valid = true →
    decode c f w = .ok i → encode c i = [⟨f, w⟩]

/-- 30 R91: both layouts of a transaction word, as numbers; and 30 R98: a word with `RW = 1` is no operation. -/
def Obligations.TransactionWordLayout : Prop :=
  (∀ w : TxWord, w.tw9.toNat = 256 * w.rs.toNat + w.byte.toNat ∧
    w.busWord.toNat = 512 * w.rs.toNat + w.byte.toNat) ∧
  ∀ (c : Config) (w : BusWord),
    (w.getLsbD 8 = true → decode c .busw10 w = .error .readWord) ∧
    (w.getLsbD 8 = false → ∃ x : TxWord, x.busWord = w ∧ decode c .busw10 w = .ok (busOp c x))

/-- 30 R93, R95, R97: words written out from the tables, at the default command values. -/
def Obligations.SpecWordsDecode : Prop :=
  decode Config.reference .busw10 0b0000000001#10 = .ok .clear ∧
  decode Config.reference .busw10 0b0000101000#10 = .ok .fs2l4 ∧
  decode Config.reference .busw10 0b0011000000#10 = .ok (.setAddr (.addr 0x40#7)) ∧
  decode Config.reference .busw10 0b1001000100#10 = .ok (.data 0x44#8) ∧
  decode Config.reference .busw10 0b0100000001#10 = .error .readWord ∧
  decode Config.reference .seqState 0b100#10 = .ok .seqPace ∧
  decode Config.reference .initState 0b10#10 = .ok .initReady ∧
  decode Config.reference .engState 0b011#10 = .ok .engEhi ∧
  decode Config.reference .gateState 0b01#10 = .ok .gateIssue ∧
  decode Config.reference .events 0b1000#10 = .ok .delayStart

/-- 30 R97: the event vector's bits, and each set bit is one event operation of the cycle. -/
def Obligations.EventVectorSelectsEvents : Prop :=
  ∀ s : State,
    ((eventVector s).getLsbD 0 = tickEvent s ∧ (eventVector s).getLsbD 1 = acceptD s ∧
      (eventVector s).getLsbD 2 = acceptM s ∧ (eventVector s).getLsbD 3 = dlyStart s) ∧
    (∀ i : Instr, i ∈ eventOps (eventVector s) ↔
      (i = .tick ∧ tickEvent s = true) ∨ (i = .dirEdge ∧ acceptD s = true) ∨
      (i = .modeEdge ∧ acceptM s = true) ∨ (i = .delayStart ∧ dlyStart s = true))

/-! ## Display commands (44, 46) -/

/-- 44 R221 to R223, R225 to R228 and 43 R198: an idle engine takes the word of each bus operation; the first form of
44 R224 too. That a bus operation is a request to the engine is assumption 7. -/
def Obligations.BusOperationsTaken : Prop :=
  ∀ s : State, s.eng.state = EngCode.dIdle →
    exec .clear s = .next (takes false s.cfg.cmdClear s) ∧
    exec .fs4 s = .next (takes false s.cfg.cmdFs4 s) ∧
    exec .dispOnCur s = .next (takes false s.cfg.cmdDispOnCur s) ∧
    exec .fs2l4 s = .next (takes false s.cfg.cmdFs2l4 s) ∧
    exec .fs2l8 s = .next (takes false s.cfg.cmdFs2l8 s) ∧
    (∀ b : Byte, exec (.sendcmd b) s = .next (takes false b s)) ∧
    (∀ v : Byte, exec (.data v) s = .next (takes true v s)) ∧
    ∀ a : DdAddr, exec (.setAddr (.addr a)) s = .next (takes false (s.cfg.cmdSetAddr ||| a.setWidth 8) s)

/-- 43 R198, corner case: a request in any other engine state is ignored. Assumption 7. -/
def Obligations.BusOperationsIgnoredWhenBusy : Prop :=
  ∀ s : State, s.eng.state ≠ EngCode.dIdle → ∀ i : Instr,
    i = .clear ∨ i = .fs4 ∨ i = .dispOnCur ∨ i = .fs2l4 ∨ i = .fs2l8 ∨ (∃ b, i = .sendcmd b) ∨ (∃ v, i = .data v) ∨
      (∃ a, i = .setAddr (.addr a)) ∨ (∃ row col, row ≤ 3 ∧ i = .setAddr (.rowCol row col)) →
    exec i s = .next s

/-- 44 R224, R231: `GOTO r, c` for each row, any column; a row above 3 is the model fault. That an idle engine takes the
word in this cycle is 43 R198, as for every bus operation (assumption 7). -/
def Obligations.GotoSetsRowBasePlusColumn : Prop :=
  ∀ (s : State) (col : Nat),
    (s.eng.state = EngCode.dIdle → ∀ row base : Nat,
      (row, base) = (0, 0x00) ∨ (row, base) = (1, 0x40) ∨ (row, base) = (2, 0x10) ∨ (row, base) = (3, 0x50) →
      exec (.setAddr (.rowCol row col)) s =
        .next (takes false (s.cfg.cmdSetAddr ||| BitVec.ofNat 8 ((base + col) % 128)) s)) ∧
    ∀ row : Nat, 3 < row → exec (.setAddr (.rowCol row col)) s = .fault (.gotoRowOutOfRange row)

/-- 44 R229, R230, R231; 46 R270, R272; 43 R192: what each pseudo-operation of several words issues, in order. That the
words wait in `script` until the engine takes them is assumption 8. -/
def Obligations.PseudoOperationsIssueTheirWords : Prop :=
  ∀ s : State,
    (∀ t : Text, exec (.puts t) s = .next { s with script := s.script ++ t.map fun ch => ⟨true, ch⟩ }) ∧
    (∀ (row base col : Nat) (t : Text),
      (row, base) = (0, 0x00) ∨ (row, base) = (1, 0x40) ∨ (row, base) = (2, 0x10) ∨ (row, base) = (3, 0x50) →
      exec (.putsAt row col t) s = .next { s with
        script := s.script ++
          ⟨false, s.cfg.cmdSetAddr ||| BitVec.ofNat 8 ((base + col) % 128)⟩ :: t.map fun ch => ⟨true, ch⟩ }) ∧
    (∀ (row col : Nat) (t : Text), 3 < row → exec (.putsAt row col t) s = .fault (.gotoRowOutOfRange row)) ∧
    (∀ v : Int, exec (.putint v) s =
      .next { s with script := s.script ++ (renderInteger v).map fun ch => ⟨true, ch⟩ }) ∧
    (∀ v : Rat, exec (.putfix v) s =
      .next { s with script := s.script ++ (renderFixedPoint v).map fun ch => ⟨true, ch⟩ }) ∧
    exec .init s = .next { s with
      script := s.script ++ match s.cfg.busWidth with
        | .four => [⟨false, s.cfg.cmdFs4⟩, ⟨false, s.cfg.cmdFs2l4⟩, ⟨false, s.cfg.cmdDispOnCur⟩, ⟨false, s.cfg.cmdClear⟩]
        | .eight => [⟨false, s.cfg.cmdFs2l8⟩, ⟨false, s.cfg.cmdDispOnCur⟩, ⟨false, s.cfg.cmdClear⟩] }

/-- 46 R270, R271: zero is `0`; a positive value its decimal digits, most significant first, no sign and no leading zero;
a negative value one leading `-`. It is sent by `PUTS`. -/
def Obligations.RenderIntegerIsDecimal : Prop :=
  renderInteger 0 = [0x30#8] ∧
  (∀ n : Nat, 0 < n → renderInteger n = (Nat.digits 10 n).reverse.map fun d => BitVec.ofNat 8 (0x30 + d)) ∧
  (∀ n : Nat, 0 < n → renderInteger (-(n : Int)) = 0x2D#8 :: renderInteger n) ∧
  ∀ (c : Config) (v : Int), issuedWords c (.putint v) = issuedWords c (.puts (renderInteger v))

/-- 46 R272: the fixed-point text of every rational, by floors on the exact magnitude. It is sent by `PUTS`. -/
def Obligations.RenderFixedPointTruncates : Prop :=
  ∀ v : Rat, ∃ ip fp : Nat, (ip : Int) = ⌊|v|⌋ ∧ (fp : Int) = ⌊(|v| - ip) * 100⌋ ∧ fp ≤ 99 ∧
    renderFixedPoint v = (if v < 0 ∧ (0 < ip ∨ 0 < fp) then [0x2D#8] else []) ++ renderInteger ip ++
      [0x2E#8, BitVec.ofNat 8 (0x30 + fp / 10), BitVec.ofNat 8 (0x30 + fp % 10)] ∧
    ∀ c : Config, issuedWords c (.putfix v) = issuedWords c (.puts (renderFixedPoint v))

/-! ## tick_timer (40) -/

/-- 40 R121, R122: what the event `TICK` writes. -/
def Obligations.TickResult : Prop :=
  ∀ s : State, exec .tick s = .next { s with
    timer := { s.timer with preCnt := 0, tickCount := BitVec.ofNat 16 ((s.timer.tickCount.toNat + 1) % 2 ^ 16) } }

/-- 40 R124, R126: what the event `DELAY_START` writes; `PACE_TICKS` when the sequencer asks, else `SETTLE_TICKS`. -/
def Obligations.DelayStartResult : Prop :=
  ∀ s : State, exec .delayStart s = .next { s with
    timer := { s.timer with
      dlyBusy := true, tickCount := 0
      dlyTarget :=
        if s.seq.state = SeqCode.sRefresh ∧ s.gate.state = GateCode.gDone then s.cfg.paceTicks
        else s.cfg.settleTicks } }

/-- 40 R121: the prescaler counts 0 to `PRESCALE - 1` and around in every cycle, whatever delay starts. -/
def Obligations.PrescalerEachCycle : Prop :=
  ∀ s : State, s.cfg.valid = true → s.timer.preCnt < s.cfg.prescale → (nextInputs s).rst = false →
    ∃ t, step s = .next t ∧
      t.timer.preCnt = if s.timer.preCnt = s.cfg.prescale - 1 then 0 else s.timer.preCnt + 1

/-- 40 R122: a delay start clears the tick counter and wins over a tick; a tick counts modulo `2^TICK_W`. -/
def Obligations.TickCounterEachCycle : Prop :=
  ∀ s : State, s.cfg.valid = true → (nextInputs s).rst = false → ∃ t, step s = .next t ∧
    (dlyStart s = true → t.timer.tickCount = 0) ∧
    (dlyStart s = false → s.timer.preCnt = s.cfg.prescale - 1 →
      t.timer.tickCount.toNat = (s.timer.tickCount.toNat + 1) % 2 ^ 16) ∧
    (dlyStart s = false → s.timer.preCnt ≠ s.cfg.prescale - 1 → t.timer.tickCount = s.timer.tickCount)

/-- 40 R123: `tick_event` is 1 exactly in the cycles `n` with `n mod PRESCALE = PRESCALE - 1` after a reset, which leaves
`pre_cnt = 0`. -/
def Obligations.TickPeriod : Prop :=
  ∀ (s : State) (n : Nat), s.cfg.valid = true → s.timer.preCnt = 0 → NoResetFor n s →
    ∃ t, after n s = .next t ∧ (tickEvent t = true ↔ n % s.cfg.prescale = s.cfg.prescale - 1)

/-- 40 R124, R125: the busy register and the target of the delay channel in every cycle; and in a running core a delay
that runs and is not done is never started again. -/
def Obligations.DelayChannelEachCycle : Prop :=
  (∀ s : State, s.cfg.valid = true → (nextInputs s).rst = false → ∃ t, step s = .next t ∧
    (dlyStart s = true → t.timer.dlyBusy = true ∧
      t.timer.dlyTarget = if seqDlyStart s = true then s.cfg.paceTicks else s.cfg.settleTicks) ∧
    (dlyStart s = false → t.timer.dlyTarget = s.timer.dlyTarget ∧
      (t.timer.dlyBusy = true ↔
        s.timer.dlyBusy = true ∧ ¬s.timer.dlyTarget.toNat ≤ s.timer.tickCount.toNat))) ∧
  ∀ s : State, CoreInv s → dlyStart s = true → s.timer.dlyBusy = true →
    s.timer.dlyTarget.toNat ≤ s.timer.tickCount.toNat

/-- 40 R127, R128: a delay of `N` ticks started in this cycle is done after exactly `d` cycles and in none before, where
`k` is the distance to the first later cycle with a tick. -/
def Obligations.DelayLength : Prop :=
  ∀ (s : State) (k : Nat), CoreInv s → dlyStart s = true → 1 ≤ k →
    (∃ t, after k s = .next t ∧ tickEvent t = true) →
    (∀ j t, 1 ≤ j → j < k → after j s = .next t → tickEvent t = false) →
    let P := s.cfg.prescale
    let N := (dlyTicks s).toNat
    let d := if N = 0 then 1 else k + (N - 1) * P + 1
    NoResetFor (max k d) s →
      k ≤ P ∧ (P = 1 → d = 1 + N) ∧ (1 ≤ N → (N - 1) * P + 2 ≤ d ∧ d ≤ N * P + 1) ∧
      (∀ j, 1 ≤ j → j < d → ∃ t, after j s = .next t ∧ dlyDone t = false) ∧
      ∃ t, after d s = .next t ∧ dlyDone t = true

/-! ## edge_latch_sync (41) -/

/-- 41 R145, R146: what the two edge events write. -/
def Obligations.EdgeEventResult : Prop :=
  ∀ s : State,
    exec .dirEdge s = .next { s with dir := { s.dir with
      flag := if s.dir.flag = .clockwise then .counterClockwise else .clockwise } } ∧
    exec .modeEdge s = .next { s with mode := { s.mode with
      flag := if s.mode.flag = .full then .half else .full } }

/-- 41 R140 to R143, R145, R146: synchroniser, previous level and flag of both latches in every cycle. -/
def Obligations.EdgeLatchesEachCycle : Prop :=
  LatchRule (·.dir) (·.dirBtnN) (fun d => if d = .clockwise then .counterClockwise else .clockwise) ∧
  LatchRule (·.mode) (·.modeBtnN) (fun m => if m = .full then .half else .full)

/-- 41 R144: the lockout register, the window after an accepted edge, and that falls are two cycles apart. -/
def Obligations.LockoutWindow : Prop :=
  LockoutRule (·.dir) ∧ LockoutRule (·.mode)

/-- 41 R147: three cycles from the sampled press to the toggled flag. -/
def Obligations.PressLatency : Prop :=
  LatencyRule (·.dir) (·.dirBtnN) (fun d => if d = .clockwise then .counterClockwise else .clockwise) ∧
  LatencyRule (·.mode) (·.modeBtnN) (fun m => if m = .full then .half else .full)

/-- 10 R31, R41, 20 R80: a button level reaches nothing in its cycle but the first synchroniser stages; flags, motor,
display and all other registers do not depend on it. -/
def Obligations.ButtonsReachOnlyTheSynchroniser : Prop :=
  ∀ (s t u : State) (i j : Inputs) (rest : List Inputs), i.rst = j.rst →
    step { s with inputs := i :: rest } = .next t → step { s with inputs := j :: rest } = .next u →
    { u with dir := { u.dir with sync0 := t.dir.sync0 }, mode := { u.mode with sync0 := t.mode.sync0 } } = t

/-! ## stepper_sequencer (42) -/

/-- 42 R160, R163, R166, R167: the arms of the sequencer besides `S_STEP`. -/
def Obligations.SequencerArmsResult : Prop :=
  ∀ s : State,
    exec .seqInit s = .next { s with seq := { s.seq with
      state := if s.ini.state = InitCode.iReady then SeqCode.sSample else s.seq.state } } ∧
    exec .seqSample s = .next { s with seq := { s.seq with
      snapDir := s.dir.flag, snapMode := s.mode.flag, state := SeqCode.sStep } } ∧
    exec .seqRefresh s = .next { s with seq := { s.seq with
      state := if s.gate.state = GateCode.gDone then SeqCode.sPace else s.seq.state } } ∧
    exec .seqPace s = .next { s with seq := { s.seq with
      state := if s.timer.dlyBusy = true ∧ s.timer.dlyTarget.toNat ≤ s.timer.tickCount.toNat then SeqCode.sSample
        else s.seq.state } }

/-- 42 R162, R164, 20 R71: one motor step. The entry is read at the index before the update, `idx mod 4` in Full; the
index advances modulo the table length or retreats with wraparound at zero, applied to the index as it stands. -/
def Obligations.MotorStepResult : Prop :=
  ∀ s : State, ∃ t, exec .seqStep s = .next t ∧
    (let len := if s.seq.snapMode = .full then 4 else 8
     let i := s.seq.stepIdx.toNat
     t.seq.state = SeqCode.sRefresh ∧ t.seq.snapDir = s.seq.snapDir ∧ t.seq.snapMode = s.seq.snapMode ∧
     (s.seq.snapMode = .full → some t.seq.motorPhase.toNat = [12, 6, 3, 9][i % 4]?) ∧
     (s.seq.snapMode = .half → some t.seq.motorPhase = s.cfg.halfTable.toList[i]?) ∧
     (s.seq.snapDir = .clockwise → t.seq.stepIdx.toNat = (i + 1) % len) ∧
     (s.seq.snapDir = .counterClockwise → t.seq.stepIdx.toNat = if i = 0 then len - 1 else i - 1)) ∧
    (s.seq.state = SeqCode.sStep → gateStart s = true)

/-- 42 R168: the unused codes of `seq_state` go to `S_INIT`, write nothing else and assert no pulse; no running core is
in one. -/
def Obligations.SequencerUnusedCodes : Prop :=
  (∀ (code : BitVec 3) (s : State), 5 ≤ code.toNat →
    exec (.seqUnused code) s = .next { s with seq := { s.seq with state := SeqCode.sInit } } ∧
    (s.seq.state = code → gateStart s = false ∧ seqDlyStart s = false)) ∧
  ∀ s : State, CoreInv s → s.seq.state.toNat ≤ 4

/-- 42 R169: the index left by a Half to Full change comes back into range: at once clockwise, by a descent to 3
counter-clockwise, in the normal order of the Full table either way. -/
def Obligations.OutOfRangeIndexRecovers : Prop :=
  ∀ (c : Config) (i : StepIndex), 4 ≤ i.toNat →
    (nextIdx i .clockwise .full).toNat = (i.toNat + 1) % 4 ∧
    (∀ j, j ≤ i.toNat - 3 →
      ((fun x => nextIdx x .counterClockwise .full)^[j] i).toNat = i.toNat - j ∧
      some (tableEntry c .full ((fun x => nextIdx x .counterClockwise .full)^[j] i)).toNat =
        [12, 6, 3, 9][(i.toNat - j) % 4]?)

/-- 10 R46: the motor port changes only after `S_STEP`, the display lines only after `D_SETUP`, `D_EON` or a `D_EHI`
whose delay is done. -/
def Obligations.PortsHaveOneWriter : Prop :=
  ∀ s t : State, (nextInputs s).rst = false → step s = .next t →
    (s.seq.state ≠ SeqCode.sStep → (outputs t).motorPhase = (outputs s).motorPhase) ∧
    (¬(s.eng.state = EngCode.dSetup ∨ s.eng.state = EngCode.dEon ∨
        (s.eng.state = EngCode.dEhi ∧ dlyDone s = true)) →
      (outputs t).lcdE = (outputs s).lcdE ∧ (outputs t).lcdRs = (outputs s).lcdRs ∧
      (outputs t).lcdRw = (outputs s).lcdRw ∧ (outputs t).lcdD = (outputs s).lcdD)

/-- 42 R161, R172: the sequencer goes round `S_SAMPLE`, `S_STEP`, `S_REFRESH`, `S_PACE` in that order and, without a
reset, never leaves it. -/
def Obligations.SequencerNeverLeavesItsLoop : Prop :=
  ∀ s t : State, (nextInputs s).rst = false → step s = .next t →
    (s.seq.state = SeqCode.sSample → t.seq.state = SeqCode.sStep) ∧
    (s.seq.state = SeqCode.sStep → t.seq.state = SeqCode.sRefresh) ∧
    (s.seq.state = SeqCode.sRefresh → t.seq.state = SeqCode.sRefresh ∨ t.seq.state = SeqCode.sPace) ∧
    (s.seq.state = SeqCode.sPace → t.seq.state = SeqCode.sPace ∨ t.seq.state = SeqCode.sSample)

/-- 20 R82, R83, 45 R250: the snapshot is taken in `S_SAMPLE` only, from the flags as they are in that cycle, and does
not change while the gate runs. -/
def Obligations.SnapshotOnlyInSample : Prop :=
  ∀ s t : State, (nextInputs s).rst = false → step s = .next t →
    (s.seq.state = SeqCode.sSample → t.seq.snapDir = s.dir.flag ∧ t.seq.snapMode = s.mode.flag) ∧
    (s.seq.state ≠ SeqCode.sSample → t.seq.snapDir = s.seq.snapDir ∧ t.seq.snapMode = s.seq.snapMode) ∧
    (CoreInv s → s.gate.state ≠ GateCode.gIdle → t.seq.snapDir = s.seq.snapDir ∧ t.seq.snapMode = s.seq.snapMode)

/-- 42 R170: at `PRESCALE = 1` an iteration from `S_SAMPLE` lasts `PACE_TICKS + 4` cycles when the gate finds no change
and `19 * (T + 1)` more when it renders, and no cycle between is a `S_SAMPLE`. -/
def Obligations.IterationLength : Prop :=
  ∀ s : State, CoreInv s → s.cfg.prescale = 1 → s.seq.state = SeqCode.sSample →
    let same := s.gate.lastValid = true ∧ s.gate.lastDir = s.dir.flag ∧ s.gate.lastMode = s.mode.flag
    ∀ n : Nat, (same → n = s.cfg.paceTicks.toNat + 4) →
      (¬same → n = s.cfg.paceTicks.toNat + 4 + 19 * (transactionTime s.cfg + 1)) → NoResetFor n s →
      (∀ j, 1 ≤ j → j < n → ∃ t, after j s = .next t ∧ t.seq.state ≠ SeqCode.sSample) ∧
      ∃ t, after n s = .next t ∧ t.seq.state = SeqCode.sSample

/-! ## display_bus_multiplexer (43) -/

/-- 43 R192 to R194, R196, R197, R207: the arms of the init runner; the word it requests and where the script ends are
those of the list of R192, four commands at 4 lines and three at 8. -/
def Obligations.InitRunnerArmsResult : Prop :=
  ∀ s : State,
    let script : List Byte := match s.cfg.busWidth with
      | .four => [s.cfg.cmdFs4, s.cfg.cmdFs2l4, s.cfg.cmdDispOnCur, s.cfg.cmdClear]
      | .eight => [s.cfg.cmdFs2l8, s.cfg.cmdDispOnCur, s.cfg.cmdClear]
    (∀ b, script[s.ini.ptr.toNat]? = some b → initWord s = ⟨false, b⟩) ∧
    (s.ini.state ≠ InitCode.iReady → txWord s = initWord s) ∧
    exec .initIssue s = .next { s with ini := { s.ini with state := InitCode.iWait } } ∧
    (s.eng.state = EngCode.dDone → s.ini.ptr.toNat + 1 = script.length →
      exec .initWait s = .next { s with ini := { s.ini with state := InitCode.iReady } }) ∧
    (s.eng.state = EngCode.dDone → s.ini.ptr.toNat + 1 ≠ script.length →
      exec .initWait s = .next { s with ini := { ptr := s.ini.ptr + 1, state := InitCode.iIssue } }) ∧
    (s.eng.state ≠ EngCode.dDone → exec .initWait s = .next s) ∧
    exec .initReady s = .next s ∧
    exec .initUnused s = .next { s with ini := { s.ini with state := InitCode.iIssue } }

/-- 43 R191, R198 to R202, R204, R207: the arms of the transaction engine; the data of a phase as numbers. -/
def Obligations.EngineArmsResult : Prop :=
  ∀ s : State,
    (txStart s = true → exec .engIdle s = .next (takes (txWord s).rs (txWord s).byte s)) ∧
    (txStart s = false → exec .engIdle s = .next s) ∧
    (∃ d : Byte, exec .engSetup s = .next { s with eng := { s.eng with
        lcdRs := s.eng.txRs, lcdRw := false, lcdD := d, state := EngCode.dEon } } ∧
      (s.cfg.busWidth = .eight → d = s.eng.txByte) ∧
      (s.cfg.busWidth = .four → s.eng.nib = false → d.toNat = 16 * (s.eng.txByte.toNat / 16)) ∧
      (s.cfg.busWidth = .four → s.eng.nib = true → d.toNat = 16 * (s.eng.txByte.toNat % 16))) ∧
    exec .engEon s = .next { s with eng := { s.eng with lcdE := true, state := EngCode.dEhi } } ∧
    exec .engEhi s = .next (if dlyDone s = true then
      { s with eng := { s.eng with lcdE := false, state := EngCode.dElo } } else s) ∧
    exec .engElo s = .next (if dlyDone s = false then s
      else if s.cfg.busWidth = .four ∧ s.eng.nib = false then
        { s with eng := { s.eng with nib := true, state := EngCode.dSetup } }
      else { s with eng := { s.eng with state := EngCode.dDone } }) ∧
    exec .engDone s = .next { s with eng := { s.eng with state := EngCode.dIdle } } ∧
    ∀ code : BitVec 3, exec (.engUnused code) s = .next { s with eng := { s.eng with state := EngCode.dIdle } }

/-- 43 R207: the unused codes of `i_state` and `d_state` go to their reset codes, write nothing else and assert no
pulse; no running core is in one. -/
def Obligations.BusUnusedCodes : Prop :=
  (∀ s : State,
    exec .initUnused s = .next { s with ini := { s.ini with state := InitCode.iIssue } } ∧
    (s.ini.state = 3#2 → initTxStart s = false ∧ deReady s = false)) ∧
  (∀ (code : BitVec 3) (s : State), 6 ≤ code.toNat →
    exec (.engUnused code) s = .next { s with eng := { s.eng with state := EngCode.dIdle } } ∧
    (s.eng.state = code → txDone s = false ∧ dbmDlyStart s = false)) ∧
  ∀ s : State, CoreInv s → s.ini.state.toNat ≤ 2 ∧ s.eng.state.toNat ≤ 5

/-- 30 R102, 43 R203: while the strobe is high, the select and data lines do not change over a cycle without a reset,
and `lcd_rw` is 0. -/
def Obligations.LinesStableUnderStrobe : Prop :=
  ∀ s t : State, CoreInv s → (nextInputs s).rst = false → step s = .next t → s.eng.lcdE = true →
    t.eng.lcdRs = s.eng.lcdRs ∧ t.eng.lcdRw = s.eng.lcdRw ∧ t.eng.lcdD = s.eng.lcdD ∧ t.eng.lcdRw = false

/-- 43 R191, R199 to R202; 30 R91, R102: a receiver on the pins completes a word exactly when the last strobe of a
transaction falls, and that word is the bus word of the transaction word latched in `D_IDLE`. Both bus widths. -/
def Obligations.WordDeliveredOnPins : Prop :=
  ∀ s t : State, CoreInv s → (nextInputs s).rst = false → step s = .next t →
    t.display.lastWord =
      if s.eng.state = EngCode.dEhi ∧ dlyDone s = true ∧ (s.cfg.busWidth = .four → s.eng.nib = true)
      then some (flightWord s).busWord else s.display.lastWord

/-- 43 R206: at `PRESCALE = 1` a transaction accepted in this cycle goes through its phases cycle by cycle as the rule
counts them and reports done after `T` cycles. -/
def Obligations.TransactionTime : Prop :=
  ∀ s : State, CoreInv s → s.cfg.prescale = 1 → txStart s = true → NoResetFor (transactionTime s.cfg) s →
    (∀ p o, p < s.cfg.busWidth.nph → o < 2 * s.cfg.settleTicks.toNat + 4 →
      ∃ t, after (1 + p * (2 * s.cfg.settleTicks.toNat + 4) + o) s = .next t ∧
        t.eng.state = phaseCode s.cfg.settleTicks.toNat o ∧
        (t.eng.lcdE = true ↔ 2 ≤ o ∧ o < s.cfg.settleTicks.toNat + 3) ∧ flightWord t = txWord s) ∧
    ∃ t, after (transactionTime s.cfg) s = .next t ∧ txDone t = true

/-- 70 R332, 43 R206, 40 R127: at any `PRESCALE` a transaction ends, within two longest holds and two cycles a phase,
whatever the buttons do. -/
def Obligations.TransactionAlwaysEnds : Prop :=
  ∀ s : State, CoreInv s → txStart s = true →
    let hold := s.cfg.settleTicks.toNat * s.cfg.prescale + 1
    let bound := s.cfg.busWidth.nph * (2 + 2 * hold) + 1
    NoResetFor bound s → ∃ n, n ≤ bound ∧ ∃ t, after n s = .next t ∧ txDone t = true

/-- 43 R192, R195, 70 R311 at `PRESCALE = 1`. First, from every state of a running core in `I_ISSUE`: the word requested
is command word `i_ptr` of the list of R192, and `T + 1` cycles later the runner asks for the next or, after the last, is
ready. Second, from reset: command word `k` is issued in cycle `k * (T + 1)`, and `I_READY` holds from cycle
`INIT_LEN * (T + 1)` on and in none before; `INIT_LEN` is 4 at 4 lines and 3 at 8, the length of the list. -/
def Obligations.InitDuration : Prop :=
  ∀ (c : Config), c.valid = true → c.prescale = 1 →
    let script : List Byte := match c.busWidth with
      | .four => [c.cmdFs4, c.cmdFs2l4, c.cmdDispOnCur, c.cmdClear]
      | .eight => [c.cmdFs2l8, c.cmdDispOnCur, c.cmdClear]
    let T := transactionTime c
    (∀ s : State, CoreInv s → s.cfg = c → s.ini.state = InitCode.iIssue → NoResetFor (T + 1) s →
      initTxStart s = true ∧ (∃ b, script[s.ini.ptr.toNat]? = some b ∧ txWord s = ⟨false, b⟩) ∧
      ∃ t, after (T + 1) s = .next t ∧
        if s.ini.ptr.toNat + 1 = script.length then t.ini.state = InitCode.iReady
        else t.ini.state = InitCode.iIssue ∧ t.ini.ptr.toNat = s.ini.ptr.toNat + 1) ∧
    ∀ ins : List Inputs,
      let s : State := { State.resetOf c with inputs := ins }
      NoResetFor (script.length * (T + 1)) s →
        (∀ k b, script[k]? = some b → ∃ t, after (k * (T + 1)) s = .next t ∧
          initTxStart t = true ∧ t.ini.ptr.toNat = k ∧ txWord t = ⟨false, b⟩) ∧
        (∀ j, j < script.length * (T + 1) → ∃ t, after j s = .next t ∧ deReady t = false) ∧
        ∀ j, script.length * (T + 1) ≤ j → NoResetFor j s → ∃ t, after j s = .next t ∧ deReady t = true

/-! ## display_refresh_gate (45) -/

/-- 45 R251: change detection. -/
def Obligations.GateChangedRule : Prop :=
  ∀ s : State, gateChanged s = true ↔
    s.gate.lastValid = false ∨ s.gate.lastDir ≠ s.seq.snapDir ∨ s.gate.lastMode ≠ s.seq.snapMode

/-- 45 R253 to R256, 43 R197: the arms of the gate, and the word it requests. -/
def Obligations.GateArmsResult : Prop :=
  ∀ s : State,
    (∀ w, (renderScript s.cfg s.seq.snapDir s.seq.snapMode)[s.gate.rPtr.toNat]? = some w → gateWord s = w) ∧
    (s.ini.state = InitCode.iReady → txWord s = gateWord s) ∧
    (gateStart s = true → gateChanged s = true →
      exec .gateIdle s = .next { s with gate := { s.gate with rPtr := 0, state := GateCode.gIssue } }) ∧
    (gateStart s = true → gateChanged s = false →
      exec .gateIdle s = .next { s with gate := { s.gate with state := GateCode.gDone } }) ∧
    (gateStart s = false → exec .gateIdle s = .next s) ∧
    exec .gateIssue s = .next { s with gate := { s.gate with state := GateCode.gWait } } ∧
    (txDone s = true → s.gate.rPtr.toNat = 18 → exec .gateWait s = .next { s with gate := { s.gate with
      lastValid := true, lastDir := s.seq.snapDir, lastMode := s.seq.snapMode, state := GateCode.gDone } }) ∧
    (txDone s = true → s.gate.rPtr.toNat ≠ 18 →
      exec .gateWait s = .next { s with gate := { s.gate with rPtr := s.gate.rPtr + 1, state := GateCode.gIssue } }) ∧
    (txDone s = false → exec .gateWait s = .next s) ∧
    exec .gateDone s = .next { s with gate := { s.gate with state := GateCode.gIdle } }

/-- 45 R252: the render script as `TW9` numbers, both columns of the table, at the default command values; row 6 to 8
follow the direction and row 15 to 18 the mode. -/
def Obligations.RenderScriptWords : Prop :=
  ∀ (di : Direction) (mo : StepMode),
    (renderScript Config.reference di mo).map (fun w => w.tw9.toNat) =
      [0x001, 0x080, 0x144, 0x169, 0x172, 0x13A] ++
      (if di = .clockwise then [0x143, 0x157, 0x120] else [0x143, 0x143, 0x157]) ++
      [0x0C0, 0x14D, 0x16F, 0x164, 0x165, 0x13A] ++
      (if mo = .full then [0x146, 0x175, 0x16C, 0x16C] else [0x148, 0x161, 0x16C, 0x166])

/-- 20 R74, 45 R257. The observer transaction by transaction, on any cells in canonical form: a data word is written at the
address counter, every other cell kept, and the counter goes on modulo 128; clear makes every cell a space and the
counter 0; a set-address word loads the counter and writes no cell; any other command, and a read word, has no effect on
either. Then the render script: sent from any content it leaves the two label lines and spaces everywhere else. The
observer is general knowledge (assumption 12). -/
def Obligations.RenderScriptShowsLabels : Prop :=
  (∀ (c : Config) (n : Nat) (w : BusWord) (d : Display), d.mem.wf → d.desync = false →
    let e := d.complete c n w
    let x := txOfBus w
    e.lastWord = some w ∧ e.half = d.half ∧ e.desync = false ∧
    (w.getLsbD 8 = true → e.mem = d.mem ∧ e.ac = d.ac) ∧
    (w.getLsbD 8 = false → e.mem = (d.react c x).mem ∧ e.ac = (d.react c x).ac) ∧
    (x.rs = true → (∀ a, (d.react c x).mem.read a = if a = d.ac.toNat then x.byte else d.mem.read a) ∧
      (d.react c x).ac.toNat = (d.ac.toNat + 1) % 128) ∧
    (x.rs = false → x.byte = c.cmdClear → (∀ a, (d.react c x).mem.read a = 0x20#8) ∧ (d.react c x).ac = 0) ∧
    (x.rs = false → x.byte ≠ c.cmdClear → x.byte.getLsbD 7 = true →
      (d.react c x).mem = d.mem ∧ (d.react c x).ac.toNat = x.byte.toNat - 128) ∧
    (x.rs = false → x.byte ≠ c.cmdClear → x.byte.getLsbD 7 = false →
      (d.react c x).mem = d.mem ∧ (d.react c x).ac = d.ac)) ∧
  ∀ (c : Config) (di : Direction) (mo : StepMode) (d : Display), observable c = true →
    (d.reactAll c (renderScript c di mo)).shows di mo

/-- 45 R257 with 43, 42: the display content contract, end to end through the pins, is kept by every step, resets
included. It is void once `desync` is set, so this says when that is: never by a step without a reset; by a reset only at 4
lines, when the first phase of a transaction has been received or its strobe is cut (70 R327, assumption 14); and it
stays set. The observer is general knowledge (20 R74, assumption 12). -/
def Obligations.DisplayContractKept : Prop :=
  ∀ s t : State, CoreInv s → step s = .next t →
    (DisplayContract s → DisplayContract t) ∧
    ((nextInputs s).rst = false → t.display.desync = s.display.desync) ∧
    ((nextInputs s).rst = true → (t.display.desync = true ↔ s.display.desync = true ∨
      s.cfg.busWidth = .four ∧
        ((s.eng.lcdE = false ∧ s.display.half.isSome = true) ∨ (s.eng.lcdE = true ∧ s.display.half = none))))

/-- 45 R257, R260: the contract holds right after reset, where nothing has been rendered; and the first gate run after
it renders, whatever the flags. -/
def Obligations.DisplayContractAtReset : Prop :=
  ∀ c : Config, DisplayContract (State.resetOf c) ∧
    ∀ s : State, s.gate = (State.resetOf c).gate → gateChanged s = true

/-- 45 R259: started again with the snapshot it last rendered, the gate issues no transaction: it is done in the next
cycle and idle in the one after, the engine stays idle, and nothing of it but its state is written. -/
def Obligations.GateSilentOnMatch : Prop :=
  ∀ s : State, CoreInv s → NoResetFor 2 s → gateStart s = true →
    s.gate.lastValid = true → s.gate.lastDir = s.seq.snapDir → s.gate.lastMode = s.seq.snapMode →
    ∃ t u, after 1 s = .next t ∧ after 2 s = .next u ∧
      t.gate = { s.gate with state := GateCode.gDone } ∧ u.gate = { s.gate with state := GateCode.gIdle } ∧
      txStart s = false ∧ txStart t = false ∧ txStart u = false ∧ t.eng = s.eng ∧ u.eng = s.eng ∧
      u.display.lastWord = s.display.lastWord

/-! ## The whole machine (10, 60, 70) -/

/-- 10 R42, 00 R10: when the code in a state register, or a bit of the event vector, decodes to an operation, a step
without a reset takes its owner's registers from `exec` of that operation at this state; the receiver sees the pins of
both cycles; inputs and cycle count move on. (`hostWord s = none`: no waiting word takes the engine, assumption 8.) -/
def Obligations.StepRunsDecodedOperations : Prop :=
  ∀ s : State, s.cfg.valid = true → (nextInputs s).rst = false →
    ∃ t, step s = .next t ∧ t.cfg = s.cfg ∧ t.inputs = s.inputs.tail ∧ t.cycle = s.cycle + 1 ∧
      t.display = s.display.observe s.cfg s.cycle s.eng t.eng ∧
      (∀ i, decode s.cfg .seqState (s.seq.state.setWidth 10) = .ok i → ∃ u, exec i s = .next u ∧ t.seq = u.seq) ∧
      (∀ i, decode s.cfg .initState (s.ini.state.setWidth 10) = .ok i → ∃ u, exec i s = .next u ∧ t.ini = u.ini) ∧
      (∀ i, hostWord s = none → decode s.cfg .engState (s.eng.state.setWidth 10) = .ok i →
        ∃ u, exec i s = .next u ∧ t.eng = u.eng ∧ t.script = s.script) ∧
      (∀ i, decode s.cfg .gateState (s.gate.state.setWidth 10) = .ok i → ∃ u, exec i s = .next u ∧ t.gate = u.gate) ∧
      (.tick ∈ eventOps (eventVector s) → ∃ u, exec .tick s = .next u ∧ t.timer.preCnt = u.timer.preCnt ∧
        (.delayStart ∉ eventOps (eventVector s) → t.timer.tickCount = u.timer.tickCount)) ∧
      (.delayStart ∈ eventOps (eventVector s) → ∃ u, exec .delayStart s = .next u ∧
        t.timer.tickCount = u.timer.tickCount ∧ t.timer.dlyBusy = u.timer.dlyBusy ∧
        t.timer.dlyTarget = u.timer.dlyTarget) ∧
      (.dirEdge ∈ eventOps (eventVector s) → ∃ u, exec .dirEdge s = .next u ∧ t.dir.flag = u.dir.flag) ∧
      (.modeEdge ∈ eventOps (eventVector s) → ∃ u, exec .modeEdge s = .next u ∧ t.mode.flag = u.mode.flag)

/-- A waiting word of a pseudo-operation, taken by an idle engine that no requester of the core asks, runs the bus
operation its bus word decodes to. The waiting words are the model's own (assumptions 7 and 8). -/
def Obligations.WaitingWordRunsItsBusOperation : Prop :=
  ∀ (s : State) (w : TxWord) (rest : List TxWord), s.cfg.valid = true → (nextInputs s).rst = false →
    s.script = w :: rest → s.eng.state = EngCode.dIdle → txStart s = false →
    ∃ i u t, decode s.cfg .busw10 w.busWord = .ok i ∧ exec i s = .next u ∧ step s = .next t ∧
      t.eng = u.eng ∧ t.eng.state = EngCode.dSetup ∧ flightWord t = w ∧ t.script = rest

/-- 10 R38, R43, R44, R37; 43 R203: every step of a running core, a reset included, leaves a running core. -/
def Obligations.CoreInvKept : Prop :=
  ∀ s t : State, CoreInv s → step s = .next t → CoreInv t

/-- Every core with parameters 00 R7 allows is a running core right after reset, whatever inputs follow. -/
def Obligations.CoreInvAtReset : Prop :=
  ∀ (c : Config) (ins : List Inputs), c.valid = true → CoreInv { State.resetOf c with inputs := ins }

/-- 10 R43, R44: the delay channel and the engine have one requester at a time, and the engine is asked only when
idle. -/
def Obligations.RequestsNeverCollide : Prop :=
  ∀ s : State, CoreInv s →
    ¬(seqDlyStart s = true ∧ dbmDlyStart s = true) ∧
    (txStart s = true → s.eng.state = EngCode.dIdle) ∧
    ¬(initTxStart s = true ∧ gateTxStart s = true)

/-- 70 R310: with `rst = 1` in this cycle every register holds its reset value in the next, from every state. -/
def Obligations.ResetHasPriority : Prop :=
  ∀ s : State, s.cfg.valid = true → (nextInputs s).rst = true → ∃ t, step s = .next t ∧
    t.timer = ⟨0, 0, false, 0⟩ ∧
    t.dir = ⟨true, true, true, 0, .clockwise⟩ ∧ t.mode = ⟨true, true, true, 0, .full⟩ ∧
    t.seq = ⟨0#3, 0, .clockwise, .full, 0⟩ ∧ t.ini = ⟨0#2, 0⟩ ∧
    t.eng = ⟨0#3, false, false, 0, false, false, false, 0⟩ ∧
    t.gate = ⟨0#2, 0, false, .clockwise, .full⟩ ∧
    outputs s = ⟨s.seq.motorPhase, s.eng.lcdE, s.eng.lcdRs, s.eng.lcdRw, s.eng.lcdD, s.timer.tickCount⟩

/-- 10 R36, 70 R310: the state after reset holds the reset value of every register, and the host's reset state is that of
the reset instance (assumption 2). The display is outside the core: its content and counter, nothing listed and 0, are
assumption 13. -/
def Obligations.ResetState : Prop :=
  State.reset = State.resetOf Config.reference ∧
  ∀ c : Config,
    (State.resetOf c).cfg = c ∧ (State.resetOf c).timer = ⟨0, 0, false, 0⟩ ∧
    (State.resetOf c).dir = ⟨true, true, true, 0, .clockwise⟩ ∧ (State.resetOf c).mode = ⟨true, true, true, 0, .full⟩ ∧
    (State.resetOf c).seq = ⟨0#3, 0, .clockwise, .full, 0⟩ ∧ (State.resetOf c).ini = ⟨0#2, 0⟩ ∧
    (State.resetOf c).eng = ⟨0#3, false, false, 0, false, false, false, 0⟩ ∧
    (State.resetOf c).gate = ⟨0#2, 0, false, .clockwise, .full⟩ ∧
    (State.resetOf c).display.mem = [] ∧ (State.resetOf c).display.ac = 0 ∧ (State.resetOf c).script = []

/-- 10 R42, 70 R332, 60 R291: a configuration that fails 00 R7 is refused; with any other a step always answers a next
state, with the same parameters, and the display memory stays in canonical form. -/
def Obligations.StepIsTotal : Prop :=
  ∀ s : State,
    (s.cfg.prescale = 0 ∨ s.cfg.cmdSetAddr.setWidth 7 ≠ 0#7 → step s = .refused .badConfiguration) ∧
    (1 ≤ s.cfg.prescale → s.cfg.cmdSetAddr.setWidth 7 = 0#7 →
      ∃ t, step s = .next t ∧ t.cfg = s.cfg ∧ (s.display.mem.wf → t.display.mem.wf))

/-! ## Frames: what an operation leaves as it was -/

/-- The arms of the sequencer write the sequencer's registers only; of those, every arm but `S_STEP` keeps the step
index and the motor port, and every arm but `S_SAMPLE` the snapshot (10 R36). -/
def Obligations.FrameSequencer : Prop :=
  ∀ (i : Instr) (s t : State),
    i = .seqInit ∨ i = .seqSample ∨ i = .seqStep ∨ i = .seqRefresh ∨ i = .seqPace ∨ (∃ code, i = .seqUnused code) →
    exec i s = .next t →
      sameTimer s t ∧ sameLatches s t ∧ sameBus s t ∧ sameGate s t ∧ sameOutside s t ∧
      (i ≠ .seqStep → t.seq.stepIdx = s.seq.stepIdx ∧ t.seq.motorPhase = s.seq.motorPhase) ∧
      (i ≠ .seqSample → t.seq.snapDir = s.seq.snapDir ∧ t.seq.snapMode = s.seq.snapMode)

/-- The arms of the init runner write its two registers only, `i_ptr` in `I_WAIT` only (10 R36). -/
def Obligations.FrameInitRunner : Prop :=
  ∀ (i : Instr) (s t : State), i = .initIssue ∨ i = .initWait ∨ i = .initReady ∨ i = .initUnused →
    exec i s = .next t →
      sameTimer s t ∧ sameLatches s t ∧ sameSeq s t ∧ t.eng = s.eng ∧ sameGate s t ∧ sameOutside s t ∧
      (i ≠ .initWait → t.ini.ptr = s.ini.ptr)

/-- The arms of the engine and the bus operations write the engine's registers only: `tx_rs`, `tx_byte` when a word is
taken, the select and data lines in `D_SETUP`, the strobe in `D_EON` and `D_EHI` (10 R36, R46). None stores to the
display address space: the observer reacts to the pins, not to the operation. -/
def Obligations.FrameEngine : Prop :=
  ∀ (i : Instr) (s t : State),
    i = .engIdle ∨ i = .engSetup ∨ i = .engEon ∨ i = .engEhi ∨ i = .engElo ∨ i = .engDone ∨
      (∃ code, i = .engUnused code) ∨ i = .clear ∨ i = .fs4 ∨ i = .dispOnCur ∨ i = .fs2l4 ∨ i = .fs2l8 ∨
      (∃ x, i = .setAddr x) ∨ (∃ v, i = .data v) ∨ (∃ b, i = .sendcmd b) →
    exec i s = .next t →
      sameTimer s t ∧ sameLatches s t ∧ sameSeq s t ∧ t.ini = s.ini ∧ sameGate s t ∧ sameOutside s t ∧
      (i ≠ .engSetup →
        t.eng.lcdRs = s.eng.lcdRs ∧ t.eng.lcdRw = s.eng.lcdRw ∧ t.eng.lcdD = s.eng.lcdD) ∧
      (i ≠ .engEon → i ≠ .engEhi → t.eng.lcdE = s.eng.lcdE) ∧
      (i = .engSetup ∨ i = .engEon ∨ i = .engEhi ∨ i = .engElo ∨ i = .engDone ∨ (∃ code, i = .engUnused code) →
        flightWord t = flightWord s)

/-- The arms of the gate write the gate's registers only, and LastRenderedState in `G_WAIT` only (10 R36). -/
def Obligations.FrameGate : Prop :=
  ∀ (i : Instr) (s t : State), i = .gateIdle ∨ i = .gateIssue ∨ i = .gateWait ∨ i = .gateDone →
    exec i s = .next t →
      sameTimer s t ∧ sameLatches s t ∧ sameSeq s t ∧ sameBus s t ∧ sameOutside s t ∧
      (i ≠ .gateWait → t.gate.lastValid = s.gate.lastValid ∧ t.gate.lastDir = s.gate.lastDir ∧
        t.gate.lastMode = s.gate.lastMode) ∧
      (i = .gateIssue ∨ i = .gateDone → t.gate.rPtr = s.gate.rPtr)

/-- The four events write the timer's registers or one flag only: `TICK` no delay register, `DELAY_START` no prescaler,
an edge event no synchroniser stage, no previous level, no lockout and not the other flag (60 R295). -/
def Obligations.FrameEvents : Prop :=
  ∀ (i : Instr) (s t : State), i = .tick ∨ i = .delayStart ∨ i = .dirEdge ∨ i = .modeEdge →
    exec i s = .next t →
      sameSeq s t ∧ sameBus s t ∧ sameGate s t ∧ sameOutside s t ∧
      (i = .tick → sameLatches s t ∧ t.timer.dlyBusy = s.timer.dlyBusy ∧ t.timer.dlyTarget = s.timer.dlyTarget) ∧
      (i = .delayStart → sameLatches s t ∧ t.timer.preCnt = s.timer.preCnt) ∧
      (i = .dirEdge → sameTimer s t ∧ t.mode = s.mode ∧ t.dir = { s.dir with flag := t.dir.flag }) ∧
      (i = .modeEdge → sameTimer s t ∧ t.dir = s.dir ∧ t.mode = { s.mode with flag := t.mode.flag })

/-- The pseudo-operations of several words write no register of the core and no cell of the display address space: they
only put words in the waiting list, which is the model's own (assumption 8). -/
def Obligations.FramePseudoOperations : Prop :=
  ∀ (i : Instr) (s t : State),
    (∃ x, i = .puts x) ∨ (∃ r c x, i = .putsAt r c x) ∨ (∃ v, i = .putint v) ∨ (∃ v, i = .putfix v) ∨ i = .init →
    exec i s = .next t →
      sameTimer s t ∧ sameLatches s t ∧ sameSeq s t ∧ sameBus s t ∧ sameGate s t ∧ t.cfg = s.cfg ∧
      t.inputs = s.inputs ∧ t.cycle = s.cycle ∧ t.display = s.display ∧ (∀ a, readByte t a = readByte s a) ∧
      ∃ ws, issuedWords s.cfg i = some ws ∧ t.script = s.script ++ ws

end Statements
end

