-- ==== Sys2Proof/Laws/Decode.lean ====
section
/-! SUPPORT. Small lemmas about bus words, scripts and operands. -/

namespace Sys2Proof

/-- A transaction word is read back from its bus word (30 R91). -/
@[simp] theorem txOfBus_busWord (w : TxWord) : txOfBus w.busWord = w := by
  obtain ⟨rs, b⟩ := w
  revert rs b; decide

/-- The bus word of a transaction word is never a read (30 R91, R98). -/
@[simp] theorem busWord_rw (w : TxWord) : w.busWord.getLsbD 8 = false := by
  obtain ⟨rs, b⟩ := w
  unfold TxWord.busWord
  rw [BitVec.getLsbD_append, BitVec.getLsbD_append]
  rfl

/-- A transaction word decodes to its bus operation. -/
theorem decode_busWord (c : Config) (w : TxWord) : decode c .busw10 w.busWord = .ok (busOp c w) := by
  unfold decode
  rw [if_neg (by rw [busWord_rw]; decide), txOfBus_busWord]

/-- A data word decodes to `DATA` whatever the command values are. -/
@[simp] theorem busOp_dataWord (c : Config) (v : Byte) : busOp c (dataWord v) = .data v := rfl

/-- Every row of `GOTO` in 0..3 has an address, no other row has one (44 R224, R231). -/
theorem gotoAddr_isSome (row col : Nat) : (gotoAddr row col).isSome = decide (row ≤ 3) := by
  unfold gotoAddr rowBase
  split <;> simp_all
  omega

/-- `RENDER` has 19 words (45 R252). -/
@[simp] theorem renderScript_length (c : Config) (di : Direction) (mo : StepMode) :
    (renderScript c di mo).length = 19 := by
  cases di <;> cases mo <;> rfl

/-- `INIT_SCRIPT` has `INIT_LEN` words (43 R192). -/
@[simp] theorem initBytes_length (c : Config) : (initBytes c).length = initLen c := by
  unfold initBytes initLen; split <;> rfl

/-- A legal pointer reads the script itself, no free value (43 R193). -/
theorem Machine.initByteAt_of_lt (c : Config) (ptr : BitVec 2) (h : ptr.toNat < initLen c) :
    Machine.initByteAt c ptr = (initBytes c)[ptr.toNat]'(by simpa using h) := by
  unfold Machine.initByteAt
  rw [List.getElem?_eq_getElem (by simpa using h)]
  rfl

/-- A legal pointer reads the script itself, no free value (45 R253). -/
theorem Machine.renderWordAt_of_le (c : Config) (di : Direction) (mo : StepMode) (ptr : BitVec 5)
    (h : ptr.toNat ≤ renderLast) :
    Machine.renderWordAt c di mo ptr = (renderScript c di mo)[ptr.toNat]'(by simp [renderLast] at *; omega) := by
  unfold Machine.renderWordAt
  rw [List.getElem?_eq_getElem (by simp [renderLast] at *; omega)]
  rfl

end Sys2Proof
end

