-- ==== Sys2Proof/Laws/Memory.lean ====
section
/-! SUPPORT. The display address space: read after write, and that every operation keeps the canonical form. -/

namespace Sys2Proof.Machine.Memory

/-- An address below every listed one reads as blank. -/
theorem read_below (m : Memory) (a : Nat) (h : ∀ x ∈ m, a < x.1) : m.read a = Memory.blank := by
  induction m with
  | nil => rfl
  | cons c rest ih =>
    have hc := h c (by simp)
    rw [read, if_neg (by omega)]
    exact ih fun x hx => h x (by simp [hx])

/-- A write reads back at its own address. -/
theorem read_insert_same (m : Memory) (a : Nat) (v : Byte) (h : m.Pairwise (fun x y => x.1 < y.1)) :
    (m.insert a v).read a = v := by
  induction m with
  | nil => unfold insert; split <;> simp_all [read]
  | cons c rest ih =>
    obtain ⟨hc, hrest⟩ := List.pairwise_cons.mp h
    unfold insert
    split
    · next hlt => rw [read, if_neg (by omega)]; exact ih hrest
    · split
      · next heq =>
        split
        · next hv => rw [hv]; exact read_below rest a fun x hx => heq ▸ hc x hx
        · simp [read]
      · next hge hne =>
        split
        · next hv =>
          rw [hv]
          refine read_below _ a fun x hx => ?_
          rcases List.mem_cons.mp hx with rfl | hx
          · omega
          · have := hc x hx; omega
        · simp [read]

/-- A write leaves every other address alone. -/
theorem read_insert_other (m : Memory) (a b : Nat) (v : Byte) (h : b ≠ a) : (m.insert a v).read b = m.read b := by
  induction m with
  | nil => unfold insert; split <;> simp [read, Ne.symm h]
  | cons c rest ih =>
    unfold insert
    split
    · simp [read, ih]
    · split
      · next heq => split <;> simp [read, heq, Ne.symm h]
      · split <;> simp [read, Ne.symm h]

/-- Every cell of the result is the written one or an old one. -/
theorem mem_insert {m : Memory} {a : Nat} {v : Byte} {x : Host.Cell} (h : x ∈ m.insert a v) :
    (x = (a, v) ∧ v ≠ Memory.blank) ∨ x ∈ m := by
  induction m with
  | nil => unfold insert at h; split at h <;> simp_all
  | cons c rest ih =>
    unfold insert at h
    split at h
    · rcases List.mem_cons.mp h with rfl | h
      · simp
      · rcases ih h with h | h <;> simp [h]
    · split at h <;> split at h <;> simp_all <;> tauto

/-- A write inside the address space keeps the canonical form. -/
theorem insert_wf (m : Memory) (a : Nat) (v : Byte) (h : m.wf) (ha : a < 128) : (m.insert a v).wf := by
  obtain ⟨hp, hc⟩ := h
  refine ⟨?_, fun x hx => ?_⟩
  · clear hc
    induction m with
    | nil => unfold insert; split <;> simp
    | cons c rest ih =>
      obtain ⟨hc, hrest⟩ := List.pairwise_cons.mp hp
      unfold insert
      split
      · next hlt =>
        refine List.pairwise_cons.mpr ⟨fun x hx => ?_, ih hrest⟩
        rcases mem_insert hx with ⟨rfl, -⟩ | hx
        · exact hlt
        · exact hc x hx
      · split
        · next heq =>
          split
          · exact hrest
          · exact List.pairwise_cons.mpr ⟨fun x hx => heq ▸ hc x hx, hrest⟩
        · next hge hne =>
          split
          · exact hp
          · refine List.pairwise_cons.mpr ⟨fun x hx => ?_, hp⟩
            rcases List.mem_cons.mp hx with rfl | hx
            · show a < x.1; omega
            · have := hc x hx; show a < x.1; omega
  · rcases mem_insert hx with ⟨rfl, hv⟩ | hx
    · exact ⟨ha, hv⟩
    · exact hc x hx

/-- The memory write of 20 R74 keeps the canonical form. -/
theorem write_wf (m : Memory) (a : DdAddr) (v : Byte) (h : m.wf) : (m.write a v).wf :=
  insert_wf m a.toNat v h a.isLt

/-- Any content of the 128 cells has the canonical form. -/
theorem ofContent_wf (f : Nat → Byte) : (ofContent f).wf := by
  refine ⟨List.Pairwise.filter _ (List.pairwise_map.mpr ?_), fun x hx => ?_⟩
  · exact List.pairwise_lt_range
  · obtain ⟨hm, hv⟩ := List.mem_filter.mp hx
    obtain ⟨a, ha, rfl⟩ := List.mem_map.mp hm
    exact ⟨List.mem_range.mp ha, by simpa using hv⟩

/-- The empty list is the memory of blanks. -/
@[simp] theorem read_nil (a : Nat) : read [] a = Memory.blank := rfl

/-- The empty memory has the canonical form. -/
theorem nil_wf : Memory.wf [] := ⟨List.Pairwise.nil, by simp⟩

end Sys2Proof.Machine.Memory
end

