-- ==== Sys2Proof/Laws/Display.lean ====
section
/-! SUPPORT. What the receiver and the observer do with one word, one strobe and one clock edge, field by field. -/

namespace Sys2Proof.Machine.Display

section Word
variable (c : Config) (n : Nat) (w : BusWord) (x : TxWord) (d : Display)

@[simp] theorem react_half : (d.react c x).half = d.half := by
  unfold react; split_ifs <;> rfl
@[simp] theorem react_lastWord : (d.react c x).lastWord = d.lastWord := by
  unfold react; split_ifs <;> rfl
@[simp] theorem react_desync : (d.react c x).desync = d.desync := by
  unfold react; split_ifs <;> rfl

/-- A completed word is recorded, whatever the observer makes of it. -/
@[simp] theorem complete_lastWord : (d.complete c n w).lastWord = some w := by
  unfold complete anyContent; split_ifs <;> simp
@[simp] theorem complete_half : (d.complete c n w).half = d.half := by
  unfold complete anyContent; split_ifs <;> simp
@[simp] theorem complete_desync : (d.complete c n w).desync = d.desync := by
  unfold complete anyContent; split_ifs <;> simp

end Word

/-- The observer keeps the canonical form. -/
theorem react_wf (c : Config) (x : TxWord) {d : Display} (h : d.mem.wf) : (d.react c x).mem.wf := by
  unfold react
  split_ifs
  · exact Memory.write_wf _ _ _ h
  · exact Memory.nil_wf
  · exact h
  · exact h

/-- So does a completed word. -/
theorem complete_wf (c : Config) (n : Nat) (w : BusWord) {d : Display} (h : d.mem.wf) : (d.complete c n w).mem.wf := by
  unfold complete
  split_ifs
  · exact Memory.ofContent_wf _
  · exact h
  · exact react_wf c _ h

/-- So does a strobe. -/
theorem strobe_wf (c : Config) (n : Nat) (e : Engine) {d : Display} (h : d.mem.wf) : (d.strobe c n e).mem.wf := by
  unfold strobe
  split
  · exact complete_wf c n _ h
  · split
    · exact h
    · exact complete_wf c n _ h

/-- A strobe never marks the content as lost. -/
@[simp] theorem strobe_desync (c : Config) (n : Nat) (e : Engine) (d : Display) :
    (d.strobe c n e).desync = d.desync := by
  unfold strobe
  split
  · simp
  · split <;> simp

end Sys2Proof.Machine.Display
end

