-- ==== Sys2Proof/Laws/PerInstr.lean ====
section
/-! SUPPORT. One family per instruction: every word the encoder gives an operation decodes, so none is a read word or
wider than its format (spec/30_encoding.md R98). -/

namespace Sys2Proof.Laws.EncodedWordsDecode

/-- Every word of the operation is one the decoder accepts. -/
def Statement (i : Instr) : Prop :=
  ∀ c : Config, ∀ w ∈ encode c i, ∃ j, decode c w.format w.bits = .ok j

/-- The bus words of any list of transactions decode. -/
theorem busWords_decode (c : Config) (i : Instr) {w : OpWord} (h : w ∈ encode.busWords c i) :
    ∃ j, decode c w.format w.bits = .ok j := by
  obtain ⟨x, -, rfl⟩ := List.mem_map.mp h
  exact ⟨busOp c x, decode_busWord c x⟩

theorem clear : Statement .clear := fun c _ h => busWords_decode c .clear h
theorem fs4 : Statement .fs4 := fun c _ h => busWords_decode c .fs4 h
theorem dispOnCur : Statement .dispOnCur := fun c _ h => busWords_decode c .dispOnCur h
theorem fs2l4 : Statement .fs2l4 := fun c _ h => busWords_decode c .fs2l4 h
theorem fs2l8 : Statement .fs2l8 := fun c _ h => busWords_decode c .fs2l8 h
theorem setAddr (x : AddrOperand) : Statement (.setAddr x) := fun c _ h => busWords_decode c (.setAddr x) h
theorem data (v : Byte) : Statement (.data v) := fun c _ h => busWords_decode c (.data v) h
theorem sendcmd (b : Byte) : Statement (.sendcmd b) := fun c _ h => busWords_decode c (.sendcmd b) h
theorem puts (t : Text) : Statement (.puts t) := fun c _ h => busWords_decode c (.puts t) h
theorem putsAt (row col : Nat) (t : Text) : Statement (.putsAt row col t) :=
  fun c _ h => busWords_decode c (.putsAt row col t) h
theorem putint (v : Int) : Statement (.putint v) := fun c _ h => busWords_decode c (.putint v) h
theorem putfix (v : Rat) : Statement (.putfix v) := fun c _ h => busWords_decode c (.putfix v) h
theorem init : Statement .init := fun c _ h => busWords_decode c .init h

/-- The word of a 3-bit state code decodes in its register. -/
theorem code3_decode (c : Config) (code : BitVec 3) :
    (∀ w ∈ codeWord .seqState code, ∃ j, decode c w.format w.bits = .ok j) ∧
      (∀ w ∈ codeWord .engState code, ∃ j, decode c w.format w.bits = .ok j) := by
  have hlt : code.toNat < 8 := code.isLt
  have hmod : code.toNat % 1024 < 8 := by omega
  simp [codeWord, decode, hmod]

/-- The word of a 2-bit state code decodes in its register. -/
theorem code2_decode (c : Config) (code : BitVec 2) :
    (∀ w ∈ codeWord .initState code, ∃ j, decode c w.format w.bits = .ok j) ∧
      (∀ w ∈ codeWord .gateState code, ∃ j, decode c w.format w.bits = .ok j) := by
  have hlt : code.toNat < 4 := code.isLt
  have hmod : code.toNat % 1024 < 4 := by omega
  simp [codeWord, decode, hmod]

theorem seqInit : Statement .seqInit := fun c => (code3_decode c SeqCode.sInit).1
theorem seqSample : Statement .seqSample := fun c => (code3_decode c SeqCode.sSample).1
theorem seqStep : Statement .seqStep := fun c => (code3_decode c SeqCode.sStep).1
theorem seqRefresh : Statement .seqRefresh := fun c => (code3_decode c SeqCode.sRefresh).1
theorem seqPace : Statement .seqPace := fun c => (code3_decode c SeqCode.sPace).1
theorem seqUnused (code : BitVec 3) : Statement (.seqUnused code) := fun c => (code3_decode c code).1
theorem initIssue : Statement .initIssue := fun c => (code2_decode c InitCode.iIssue).1
theorem initWait : Statement .initWait := fun c => (code2_decode c InitCode.iWait).1
theorem initReady : Statement .initReady := fun c => (code2_decode c InitCode.iReady).1
theorem initUnused : Statement .initUnused := fun c => (code2_decode c 3).1
theorem engIdle : Statement .engIdle := fun c => (code3_decode c EngCode.dIdle).2
theorem engSetup : Statement .engSetup := fun c => (code3_decode c EngCode.dSetup).2
theorem engEon : Statement .engEon := fun c => (code3_decode c EngCode.dEon).2
theorem engEhi : Statement .engEhi := fun c => (code3_decode c EngCode.dEhi).2
theorem engElo : Statement .engElo := fun c => (code3_decode c EngCode.dElo).2
theorem engDone : Statement .engDone := fun c => (code3_decode c EngCode.dDone).2
theorem engUnused (code : BitVec 3) : Statement (.engUnused code) := fun c => (code3_decode c code).2
theorem gateIdle : Statement .gateIdle := fun c => (code2_decode c GateCode.gIdle).2
theorem gateIssue : Statement .gateIssue := fun c => (code2_decode c GateCode.gIssue).2
theorem gateWait : Statement .gateWait := fun c => (code2_decode c GateCode.gWait).2
theorem gateDone : Statement .gateDone := fun c => (code2_decode c GateCode.gDone).2

/-- The word of one event decodes to that event. -/
theorem event_decode (c : Config) :
    (∀ w ∈ eventWord 0, ∃ j, decode c w.format w.bits = .ok j) ∧
      (∀ w ∈ eventWord 1, ∃ j, decode c w.format w.bits = .ok j) ∧
      (∀ w ∈ eventWord 2, ∃ j, decode c w.format w.bits = .ok j) ∧
      (∀ w ∈ eventWord 3, ∃ j, decode c w.format w.bits = .ok j) := by
  refine ⟨?_, ?_, ?_, ?_⟩ <;> intro w hw <;> obtain rfl := List.mem_singleton.mp hw
  exacts [⟨.tick, rfl⟩, ⟨.dirEdge, rfl⟩, ⟨.modeEdge, rfl⟩, ⟨.delayStart, rfl⟩]

theorem tick : Statement .tick := fun c => (event_decode c).1
theorem dirEdge : Statement .dirEdge := fun c => (event_decode c).2.1
theorem modeEdge : Statement .modeEdge := fun c => (event_decode c).2.2.1
theorem delayStart : Statement .delayStart := fun c => (event_decode c).2.2.2

end Sys2Proof.Laws.EncodedWordsDecode
end

