-- ==== Sys2Proof/Laws/State.lean ====
section
/-! SUPPORT. One small lemma per field and named update, so that no proof unfolds a record update. -/

namespace Sys2Proof.Machine

section Accept
variable (e : Engine) (w : TxWord)

@[simp] theorem Engine.accept_state : (e.accept w).state = EngCode.dSetup := rfl
@[simp] theorem Engine.accept_nib : (e.accept w).nib = false := rfl
@[simp] theorem Engine.accept_txRs : (e.accept w).txRs = w.rs := rfl
@[simp] theorem Engine.accept_txByte : (e.accept w).txByte = w.byte := rfl
@[simp] theorem Engine.accept_lcdE : (e.accept w).lcdE = e.lcdE := rfl
@[simp] theorem Engine.accept_lcdRs : (e.accept w).lcdRs = e.lcdRs := rfl
@[simp] theorem Engine.accept_lcdRw : (e.accept w).lcdRw = e.lcdRw := rfl
@[simp] theorem Engine.accept_lcdD : (e.accept w).lcdD = e.lcdD := rfl

end Accept

section Request
variable (w : TxWord) (s : State)

/-- An idle engine takes the word (43 R198). -/
theorem request_of_idle (h : s.eng.state = EngCode.dIdle) : request w s = { s with eng := s.eng.accept w } :=
  if_pos h

/-- An engine in any other state ignores the request (43 R198). -/
theorem request_of_busy (h : s.eng.state ≠ EngCode.dIdle) : request w s = s :=
  if_neg h

/-- Whatever the engine's state, a request changes no field but the engine. -/
theorem request_eq : request w s = { s with eng := (request w s).eng } := by
  unfold request; split <;> rfl

@[simp] theorem request_cfg : (request w s).cfg = s.cfg := by rw [request_eq]
@[simp] theorem request_timer : (request w s).timer = s.timer := by rw [request_eq]
@[simp] theorem request_dir : (request w s).dir = s.dir := by rw [request_eq]
@[simp] theorem request_mode : (request w s).mode = s.mode := by rw [request_eq]
@[simp] theorem request_seq : (request w s).seq = s.seq := by rw [request_eq]
@[simp] theorem request_ini : (request w s).ini = s.ini := by rw [request_eq]
@[simp] theorem request_gate : (request w s).gate = s.gate := by rw [request_eq]
@[simp] theorem request_display : (request w s).display = s.display := by rw [request_eq]
@[simp] theorem request_script : (request w s).script = s.script := by rw [request_eq]
@[simp] theorem request_inputs : (request w s).inputs = s.inputs := by rw [request_eq]
@[simp] theorem request_cycle : (request w s).cycle = s.cycle := by rw [request_eq]

end Request

section Issue
variable (ws : List TxWord) (s : State)

@[simp] theorem issue_script : (issue ws s).script = s.script ++ ws := rfl
@[simp] theorem issue_cfg : (issue ws s).cfg = s.cfg := rfl
@[simp] theorem issue_timer : (issue ws s).timer = s.timer := rfl
@[simp] theorem issue_dir : (issue ws s).dir = s.dir := rfl
@[simp] theorem issue_mode : (issue ws s).mode = s.mode := rfl
@[simp] theorem issue_seq : (issue ws s).seq = s.seq := rfl
@[simp] theorem issue_ini : (issue ws s).ini = s.ini := rfl
@[simp] theorem issue_eng : (issue ws s).eng = s.eng := rfl
@[simp] theorem issue_gate : (issue ws s).gate = s.gate := rfl
@[simp] theorem issue_display : (issue ws s).display = s.display := rfl
@[simp] theorem issue_inputs : (issue ws s).inputs = s.inputs := rfl
@[simp] theorem issue_cycle : (issue ws s).cycle = s.cycle := rfl

end Issue

section Reset
variable (s : State)

@[simp] theorem afterReset_cfg : (afterReset s).cfg = s.cfg := rfl
@[simp] theorem afterReset_timer : (afterReset s).timer = .reset := rfl
@[simp] theorem afterReset_dir : (afterReset s).dir = .reset .clockwise := rfl
@[simp] theorem afterReset_mode : (afterReset s).mode = .reset .full := rfl
@[simp] theorem afterReset_seq : (afterReset s).seq = .reset := rfl
@[simp] theorem afterReset_ini : (afterReset s).ini = .reset := rfl
@[simp] theorem afterReset_eng : (afterReset s).eng = .reset := rfl
@[simp] theorem afterReset_gate : (afterReset s).gate = .reset := rfl
@[simp] theorem afterReset_script : (afterReset s).script = [] := rfl
@[simp] theorem afterReset_display : (afterReset s).display = s.display := rfl

@[simp] theorem resetCycle_cfg : (resetCycle s).cfg = s.cfg := rfl
@[simp] theorem resetCycle_timer : (resetCycle s).timer = .reset := rfl
@[simp] theorem resetCycle_dir : (resetCycle s).dir = .reset .clockwise := rfl
@[simp] theorem resetCycle_mode : (resetCycle s).mode = .reset .full := rfl
@[simp] theorem resetCycle_seq : (resetCycle s).seq = .reset := rfl
@[simp] theorem resetCycle_ini : (resetCycle s).ini = .reset := rfl
@[simp] theorem resetCycle_eng : (resetCycle s).eng = .reset := rfl
@[simp] theorem resetCycle_gate : (resetCycle s).gate = .reset := rfl
@[simp] theorem resetCycle_script : (resetCycle s).script = [] := rfl

end Reset

section Sample
variable {α : Type} (n : Nat) (b : Bool) (l : EdgeLatch α)

@[simp] theorem EdgeLatch.sample_sync0 : (l.sample n b).sync0 = b := rfl
@[simp] theorem EdgeLatch.sample_sync1 : (l.sample n b).sync1 = l.sync0 := rfl
@[simp] theorem EdgeLatch.sample_prev : (l.sample n b).prev = l.sync1 := rfl
@[simp] theorem EdgeLatch.sample_lock : (l.sample n b).lock = l.nextLock n := rfl
@[simp] theorem EdgeLatch.sample_flag : (l.sample n b).flag = l.flag := rfl

end Sample

section Outcome
variable (f : State → Result)

@[simp] theorem andThen_next (s : State) : andThen (.next s) f = f s := rfl
@[simp] theorem andThen_fault (e : Fault) : andThen (.fault e) f = .fault e := rfl
@[simp] theorem andThen_refused (e : Refusal) : andThen (.refused e) f = .refused e := rfl

/-- Everything `andThen` can do when it answers a next state. -/
theorem andThen_eq_next {r : Result} {t : State} (h : andThen r f = .next t) : ∃ s, r = .next s ∧ f s = .next t := by
  cases r with
  | next s => exact ⟨s, rfl, h⟩
  | fault e => cases h
  | refused e => cases h

end Outcome

end Sys2Proof.Machine
end

