-- ==== Sys2Proof/Laws/Step.lean ====
section
/-! SUPPORT. What each operation and one clock cycle can do, said once: `exec_…` evaluates the operation a state code
selects, `step_of_reset` and `step_of_run` evaluate a step, `step_eq_next` is its inversion. -/

namespace Sys2Proof.Machine

/-- The sequencer's registers after its arm. -/
def seqOut (s : State) : Sequencer :=
  if s.seq.state = SeqCode.sInit then
    { s.seq with state := if deReady s then SeqCode.sSample else s.seq.state }
  else if s.seq.state = SeqCode.sSample then
    { s.seq with snapDir := s.dir.flag, snapMode := s.mode.flag, state := SeqCode.sStep }
  else if s.seq.state = SeqCode.sStep then
    { s.seq with
      motorPhase := stepEntry s, stepIdx := nextIdx s.seq.stepIdx s.seq.snapDir s.seq.snapMode
      state := SeqCode.sRefresh }
  else if s.seq.state = SeqCode.sRefresh then
    { s.seq with state := if gateDone s then SeqCode.sPace else s.seq.state }
  else if s.seq.state = SeqCode.sPace then
    { s.seq with state := if dlyDone s then SeqCode.sSample else s.seq.state }
  else { s.seq with state := SeqCode.sInit }

/-- The init runner's registers after its arm. -/
def iniOut (s : State) : InitRunner :=
  if s.ini.state = InitCode.iIssue then { s.ini with state := InitCode.iWait }
  else if s.ini.state = InitCode.iWait then
    if txDone s then
      if s.ini.ptr.toNat = initLen s.cfg - 1 then { s.ini with state := InitCode.iReady }
      else { ptr := s.ini.ptr + 1, state := InitCode.iIssue }
    else s.ini
  else if s.ini.state = InitCode.iReady then s.ini
  else { s.ini with state := InitCode.iIssue }

/-- The engine's registers after its arm. -/
def engOut (s : State) : Engine :=
  if s.eng.state = EngCode.dIdle then if txStart s then s.eng.accept (txWord s) else s.eng
  else if s.eng.state = EngCode.dSetup then
    { s.eng with
      lcdRs := s.eng.txRs, lcdRw := false, lcdD := busData s.cfg.busWidth s.eng.txByte s.eng.nib
      state := EngCode.dEon }
  else if s.eng.state = EngCode.dEon then { s.eng with lcdE := true, state := EngCode.dEhi }
  else if s.eng.state = EngCode.dEhi then
    if dlyDone s then { s.eng with lcdE := false, state := EngCode.dElo } else s.eng
  else if s.eng.state = EngCode.dElo then
    if dlyDone s then
      if s.cfg.busWidth.nph = 2 ∧ s.eng.nib = false then { s.eng with nib := true, state := EngCode.dSetup }
      else { s.eng with state := EngCode.dDone }
    else s.eng
  else { s.eng with state := EngCode.dIdle }

/-- The gate's registers after its arm. -/
def gateOut (s : State) : RefreshGate :=
  if s.gate.state = GateCode.gIdle then
    if gateStart s then
      if gateChanged s then { s.gate with rPtr := 0, state := GateCode.gIssue }
      else { s.gate with state := GateCode.gDone }
    else s.gate
  else if s.gate.state = GateCode.gIssue then { s.gate with state := GateCode.gWait }
  else if s.gate.state = GateCode.gWait then
    if txDone s then
      if s.gate.rPtr.toNat = renderLast then
        { s.gate with
          lastValid := true, lastDir := s.seq.snapDir, lastMode := s.seq.snapMode, state := GateCode.gDone }
      else { s.gate with rPtr := s.gate.rPtr + 1, state := GateCode.gIssue }
    else s.gate
  else { s.gate with state := GateCode.gIdle }

/-- The timer's registers after a cycle. -/
def timerOut (s : State) : TickTimer where
  preCnt := if tickEvent s then 0 else (s.timer.preCnt + 1) % 2 ^ s.cfg.preW
  tickCount := if dlyStart s then 0 else if tickEvent s then s.timer.tickCount + 1 else s.timer.tickCount
  dlyBusy := if dlyStart s then true else s.timer.dlyBusy && !dlyDone s
  dlyTarget := if dlyStart s then dlyTicks s else s.timer.dlyTarget

/-! The same, code by code: what the arm of one state code leaves in its owner's registers. -/

section Codes
variable {s : State}

theorem seqOut_init (h : s.seq.state = SeqCode.sInit) :
    seqOut s = { s.seq with state := if deReady s then SeqCode.sSample else SeqCode.sInit } := by
  simp [seqOut, h]

theorem seqOut_sample (h : s.seq.state = SeqCode.sSample) :
    seqOut s = { s.seq with snapDir := s.dir.flag, snapMode := s.mode.flag, state := SeqCode.sStep } := by
  simp [seqOut, h]

theorem seqOut_step (h : s.seq.state = SeqCode.sStep) :
    seqOut s = { s.seq with
      motorPhase := stepEntry s, stepIdx := nextIdx s.seq.stepIdx s.seq.snapDir s.seq.snapMode
      state := SeqCode.sRefresh } := by
  simp [seqOut, h]

theorem seqOut_refresh (h : s.seq.state = SeqCode.sRefresh) :
    seqOut s = { s.seq with state := if gateDone s then SeqCode.sPace else SeqCode.sRefresh } := by
  simp [seqOut, h]

theorem seqOut_pace (h : s.seq.state = SeqCode.sPace) :
    seqOut s = { s.seq with state := if dlyDone s then SeqCode.sSample else SeqCode.sPace } := by
  simp [seqOut, h]

theorem iniOut_issue (h : s.ini.state = InitCode.iIssue) : iniOut s = { s.ini with state := InitCode.iWait } := by
  simp [iniOut, h]

theorem iniOut_wait (h : s.ini.state = InitCode.iWait) :
    iniOut s = if txDone s then
      if s.ini.ptr.toNat = initLen s.cfg - 1 then { s.ini with state := InitCode.iReady }
      else { ptr := s.ini.ptr + 1, state := InitCode.iIssue } else s.ini := by
  simp [iniOut, h]

theorem iniOut_ready (h : s.ini.state = InitCode.iReady) : iniOut s = s.ini := by
  simp [iniOut, h]

theorem engOut_idle (h : s.eng.state = EngCode.dIdle) :
    engOut s = if txStart s then s.eng.accept (txWord s) else s.eng := by
  simp [engOut, h]

theorem engOut_setup (h : s.eng.state = EngCode.dSetup) :
    engOut s = { s.eng with
      lcdRs := s.eng.txRs, lcdRw := false, lcdD := busData s.cfg.busWidth s.eng.txByte s.eng.nib
      state := EngCode.dEon } := by
  simp [engOut, h]

theorem engOut_eon (h : s.eng.state = EngCode.dEon) :
    engOut s = { s.eng with lcdE := true, state := EngCode.dEhi } := by
  simp [engOut, h]

theorem engOut_ehi (h : s.eng.state = EngCode.dEhi) :
    engOut s = if dlyDone s then { s.eng with lcdE := false, state := EngCode.dElo } else s.eng := by
  simp [engOut, h]

theorem engOut_elo (h : s.eng.state = EngCode.dElo) :
    engOut s = if dlyDone s then
      if s.cfg.busWidth.nph = 2 ∧ s.eng.nib = false then { s.eng with nib := true, state := EngCode.dSetup }
      else { s.eng with state := EngCode.dDone } else s.eng := by
  simp [engOut, h]

theorem engOut_done (h : s.eng.state = EngCode.dDone) : engOut s = { s.eng with state := EngCode.dIdle } := by
  simp [engOut, h]

theorem gateOut_idle (h : s.gate.state = GateCode.gIdle) :
    gateOut s = if gateStart s then
      if gateChanged s then { s.gate with rPtr := 0, state := GateCode.gIssue }
      else { s.gate with state := GateCode.gDone } else s.gate := by
  simp [gateOut, h]

theorem gateOut_issue (h : s.gate.state = GateCode.gIssue) : gateOut s = { s.gate with state := GateCode.gWait } := by
  simp [gateOut, h]

theorem gateOut_wait (h : s.gate.state = GateCode.gWait) :
    gateOut s = if txDone s then
      if s.gate.rPtr.toNat = renderLast then
        { s.gate with
          lastValid := true, lastDir := s.seq.snapDir, lastMode := s.seq.snapMode, state := GateCode.gDone }
      else { s.gate with rPtr := s.gate.rPtr + 1, state := GateCode.gIssue } else s.gate := by
  simp [gateOut, h]

theorem gateOut_done (h : s.gate.state = GateCode.gDone) : gateOut s = { s.gate with state := GateCode.gIdle } := by
  simp [gateOut, h]

end Codes

/-- The operation of the current sequencer state. -/
theorem exec_seqOp (s : State) : exec (seqOp s.seq.state) s = .next { s with seq := seqOut s } := by
  unfold seqOp seqOut
  split_ifs <;>
    simp_all [exec, execSeqInit, execSeqSample, execSeqStep, execSeqRefresh, execSeqPace, execSeqUnused]

/-- The operation of the current init runner state. -/
theorem exec_initOp (s : State) : exec (initOp s.ini.state) s = .next { s with ini := iniOut s } := by
  unfold initOp iniOut
  split_ifs <;> simp_all [exec, execInitIssue, execInitWait, execInitReady, execInitUnused]

/-- The operation of the current engine state. -/
theorem exec_engOp (s : State) : exec (engOp s.eng.state) s = .next { s with eng := engOut s } := by
  unfold engOp engOut
  split_ifs <;>
    simp_all [exec, execEngIdle, execEngSetup, execEngEon, execEngEhi, execEngElo, execEngDone, execEngUnused]

/-- The operation of the current gate state. -/
theorem exec_gateOp (s : State) : exec (gateOp s.gate.state) s = .next { s with gate := gateOut s } := by
  unfold gateOp gateOut
  split_ifs <;> simp_all [exec, execGateIdle, execGateIssue, execGateWait, execGateDone]

/-- On a configuration R7 allows, the bus operation of a word requests exactly that word (30 R91, R95). -/
theorem exec_busOp (s : State) (w : TxWord) (hv : s.cfg.valid = true) :
    exec (busOp s.cfg w) s = .next (request w s) := by
  obtain ⟨rs, b⟩ := w
  unfold busOp
  split_ifs with h1 h2 h3 h4 h5 h6 h7
  · simp_all [exec, execData, dataWord]
  all_goals simp_all [exec, execClear, execFs4, execDispOnCur, execFs2l4, execFs2l8, execSetAddr, execSendcmd, cmdWord]
  simp only [Config.valid, Bool.and_eq_true, beq_iff_eq] at hv
  have : setAddrWord s.cfg (b.setWidth 7) = ⟨false, b⟩ := by
    simp only [setAddrWord, cmdWord, TxWord.mk.injEq, true_and]
    obtain ⟨-, h0⟩ := hv
    ext i hi
    have h0i := congrArg (fun v : BitVec 7 => v.getLsbD i) h0
    simp only [BitVec.getLsbD_setWidth, BitVec.getLsbD_zero] at h0i
    rw [← BitVec.getLsbD_eq_getElem, ← BitVec.getLsbD_eq_getElem, BitVec.getLsbD_or, BitVec.getLsbD_setWidth, BitVec.getLsbD_setWidth]
    rcases Nat.lt_or_ge i 7 with h | h
    · simp_all
    · obtain rfl : i = 7 := by omega
      simp_all
  rw [this]

/-- The engine after a cycle: a waiting host word it takes, else its arm. -/
def engineOut (s : State) : Engine :=
  match hostWord s with
  | some w => s.eng.accept w
  | none => engOut s

theorem exec_engineOp (s : State) (hv : s.cfg.valid = true) :
    exec (engineOp s) s = .next { s with eng := engineOut s } := by
  unfold engineOp engineOut
  cases hw : hostWord s with
  | none => exact exec_engOp s
  | some w =>
    have hidle : s.eng.state = EngCode.dIdle := by
      unfold hostWord at hw; split at hw
      · next h => exact h.1
      · cases hw
    rw [exec_busOp s w hv, request_of_idle w s hidle]

/-- The registers after a cycle with `rst = 0` and the inputs `i`. -/
def cycleOut (i : Inputs) (s : State) : State :=
  { s with
    timer := timerOut s
    dir := { s.dir.sample s.cfg.debounceCycles i.dirBtnN with
      flag := if acceptD s then toggleDirection s.dir.flag else s.dir.flag }
    mode := { s.mode.sample s.cfg.debounceCycles i.modeBtnN with
      flag := if acceptM s then toggleMode s.mode.flag else s.mode.flag }
    seq := seqOut s
    ini := iniOut s
    eng := engineOut s
    gate := gateOut s
    display := s.display.observe s.cfg s.cycle s.eng (engineOut s)
    script := if (hostWord s).isSome then s.script.tail else s.script
    inputs := s.inputs.tail
    cycle := s.cycle + 1 }

/-- A cycle with `rst = 0` runs every operation of the cycle and answers a next state. -/
theorem runCycle_eq (i : Inputs) (s : State) (hv : s.cfg.valid = true) : runCycle i s = .next (cycleOut i s) := by
  simp only [runCycle, exec_seqOp, exec_initOp, exec_engineOp s hv, exec_gateOp, andThen_next, execWhen]
  cases ht : tickEvent s <;> cases hd : dlyStart s <;> cases hp : acceptD s <;> cases hq : acceptM s <;>
    simp [exec, execTick, execDelayStart, execDirEdge, execModeEdge, andThen, mergeCycle, cycleOut, mergeTimer,
      timerOut, idleTimer, ht, hd, hp, hq, EdgeLatch.sample]

theorem step_of_invalid (s : State) (hv : s.cfg.valid = false) : step s = .refused .badConfiguration := by
  simp [step, hv]

theorem step_of_reset (s : State) (hv : s.cfg.valid = true) (hr : (nextInputs s).rst = true) :
    step s = .next (resetCycle s) := by
  simp [step, hv, hr]

theorem step_of_run (s : State) (hv : s.cfg.valid = true) (hr : (nextInputs s).rst = false) :
    step s = .next (cycleOut (nextInputs s) s) := by
  simp [step, hv, hr, runCycle_eq]

/-- Everything a step can do when it answers a next state. -/
theorem step_eq_next {s t : State} (h : step s = .next t) :
    s.cfg.valid = true ∧
      (((nextInputs s).rst = true ∧ t = resetCycle s) ∨
        ((nextInputs s).rst = false ∧ t = cycleOut (nextInputs s) s)) := by
  cases hv : s.cfg.valid with
  | false => rw [step_of_invalid s hv] at h; cases h
  | true =>
    refine ⟨rfl, ?_⟩
    cases hr : (nextInputs s).rst with
    | true => rw [step_of_reset s hv hr] at h; cases h; exact .inl ⟨rfl, rfl⟩
    | false => rw [step_of_run s hv hr] at h; cases h; exact .inr ⟨rfl, rfl⟩

@[simp] theorem after_zero (s : State) : after 0 s = .next s := rfl

/-- One cycle, then the others. -/
theorem after_succ {s t : State} (n : Nat) (h : step s = .next t) : after (n + 1) s = after n t := by
  simp [after, h]

/-- The first of `n + 1` cycles without a reset has `rst = 0`. -/
theorem NoResetFor.head {n : Nat} {s : State} (h : NoResetFor (n + 1) s) : (nextInputs s).rst = false := by
  obtain ⟨h1, h2⟩ := h
  unfold nextInputs
  cases hi : s.inputs with
  | nil => simp [hi] at h1
  | cons a l => exact h2 a (by simp [hi])

/-- The others have none either. -/
theorem NoResetFor.tail {n : Nat} {s : State} (h : NoResetFor (n + 1) s) :
    NoResetFor n (cycleOut (nextInputs s) s) := by
  obtain ⟨h1, h2⟩ := h
  cases hi : s.inputs with
  | nil => simp [hi] at h1
  | cons a l =>
    simp only [hi, List.length_cons, List.take_succ_cons, List.mem_cons] at h1 h2
    refine ⟨?_, fun x hx => h2 x (.inr ?_)⟩
    · simp only [cycleOut, hi, List.tail_cons]; omega
    · simpa [cycleOut, hi] using hx

/-- Fewer cycles than `n` without a reset. -/
theorem NoResetFor.mono {m n : Nat} {s : State} (h : NoResetFor n s) (hm : m ≤ n) : NoResetFor m s :=
  ⟨hm.trans h.1, fun i hi => h.2 i (List.take_subset_take_left _ hm hi)⟩

end Sys2Proof.Machine
end

