-- ==== Sys2Proof/Tests/Slice0.lean ====
section
/-! SUPPORT. Small tests of one step or one operation each. Expected values are the spec's worked examples and tables;
the rule stands beside each. Then one witness for the premises of each statement that has any. -/

namespace Sys2Proof.Tests
open Sys2Proof Sys2Proof.Machine

/-! ## Well-formedness: one ill-formed term for each check -/

theorem test_wf_refuses_goto_row_4 : (Instr.setAddr (.rowCol 4 0)).wf = false := by decide
theorem test_wf_accepts_goto_row_3 : (Instr.setAddr (.rowCol 3 500)).wf = true := by decide
theorem test_wf_refuses_putsAt_row_4 : (Instr.putsAt 4 0 []).wf = false := by decide
theorem test_wf_refuses_seqUnused_4 : (Instr.seqUnused 4#3).wf = false := by decide
theorem test_wf_refuses_engUnused_5 : (Instr.engUnused 5#3).wf = false := by decide

/-! ## Decoding: words written out from 30 R93, R95, R97 -/

/-- 30 R95, every row. -/
theorem test_decode_bus_words :
    decode Config.reference .busw10 0b0000000001#10 = .ok .clear ∧
    decode Config.reference .busw10 0b0000000010#10 = .ok .fs4 ∧
    decode Config.reference .busw10 0b0000001110#10 = .ok .dispOnCur ∧
    decode Config.reference .busw10 0b0000101000#10 = .ok .fs2l4 ∧
    decode Config.reference .busw10 0b0000111000#10 = .ok .fs2l8 ∧
    decode Config.reference .busw10 0b0011011111#10 = .ok (.setAddr (.addr 0x5F#7)) ∧
    decode Config.reference .busw10 0b1001000100#10 = .ok (.data 0x44#8) ∧
    decode Config.reference .busw10 0b0000000110#10 = .ok (.sendcmd 0x06#8) := by
  refine ⟨?_, ?_, ?_, ?_, ?_, ?_, ?_, ?_⟩ <;> rfl

/-- 30 R98: a read word is refused, as data or as a command. -/
theorem test_decode_read_words :
    decode Config.reference .busw10 0b0100000001#10 = .error .readWord ∧
    decode Config.reference .busw10 0b1101000100#10 = .error .readWord := ⟨rfl, rfl⟩

/-- 30 R93, `seq_state`. -/
theorem test_decode_seq_codes :
    (List.range 9).map (fun k => decode Config.reference .seqState (BitVec.ofNat 10 k)) =
      [.ok .seqInit, .ok .seqSample, .ok .seqStep, .ok .seqRefresh, .ok .seqPace, .ok (.seqUnused 5#3),
        .ok (.seqUnused 6#3), .ok (.seqUnused 7#3), .error .tooWide] := rfl

/-- 30 R93, `i_state`. -/
theorem test_decode_init_codes :
    (List.range 5).map (fun k => decode Config.reference .initState (BitVec.ofNat 10 k)) =
      [.ok .initIssue, .ok .initWait, .ok .initReady, .ok .initUnused, .error .tooWide] := rfl

/-- 30 R93, `d_state`. -/
theorem test_decode_eng_codes :
    (List.range 9).map (fun k => decode Config.reference .engState (BitVec.ofNat 10 k)) =
      [.ok .engIdle, .ok .engSetup, .ok .engEon, .ok .engEhi, .ok .engElo, .ok .engDone, .ok (.engUnused 6#3),
        .ok (.engUnused 7#3), .error .tooWide] := rfl

/-- 30 R93, `g_state`. -/
theorem test_decode_gate_codes :
    (List.range 5).map (fun k => decode Config.reference .gateState (BitVec.ofNat 10 k)) =
      [.ok .gateIdle, .ok .gateIssue, .ok .gateWait, .ok .gateDone, .error .tooWide] := rfl

/-- 30 R97: one event a bit; none and several are no single operation. -/
theorem test_decode_events :
    [0, 1, 2, 4, 8, 9, 16].map (fun k => decode Config.reference .events (BitVec.ofNat 10 k)) =
      [.error .noEvent, .ok .tick, .ok .dirEdge, .ok .modeEdge, .ok .delayStart, .error .severalEvents,
        .error .tooWide] := rfl

/-- The rows of the opcode table as numbers: bus words, codes, events (assumption 10). -/
theorem test_decodeTableWord :
    decodeTableWord 16 0x001 = some .clear ∧ decodeTableWord 16 0x0C0 = some (.setAddr (.addr 0x40#7)) ∧
    decodeTableWord 16 0x244 = some (.data 0x44#8) ∧ decodeTableWord 16 0x101 = none ∧
    decodeTableWord 8 4 = some .seqPace ∧ decodeTableWord 8 6 = some (.engUnused 6#3) ∧
    decodeTableWord 8 8 = some .delayStart := by
  refine ⟨?_, ?_, ?_, ?_, ?_, ?_, ?_⟩ <;> rfl

/-- 44 R229, R230, 46 R270, R272, 43 R192: the pseudo-operations have no word of their own; the bus words they expand
to are those of the examples. -/
theorem test_encode_pseudo :
    (encode Config.reference (.puts (textOf ['C', 'W', ' ']))).map (·.bits) = [0x243#10, 0x257#10, 0x220#10] ∧
    (encode Config.reference (.putsAt 1 0 (textOf ['M', 'o']))).map (·.bits) = [0x0C0#10, 0x24D#10, 0x26F#10] ∧
    (encode Config.reference (.putint (-42))).map (·.bits) = [0x22D#10, 0x234#10, 0x232#10] ∧
    (encode Config.reference .init).map (·.bits) = [0x002#10, 0x028#10, 0x00E#10, 0x001#10] := by
  refine ⟨?_, ?_, ?_, ?_⟩ <;> rfl

/-! ## A small machine: `PRESCALE = 1`, `SETTLE_TICKS = 1`, `PACE_TICKS = 2` (95, conventions) -/

/-- 4 lines, `H[k] = k`. -/
def cfg : Config where
  prescale := 1
  settleTicks := 1
  paceTicks := 2
  busWidth := .four
  debounceCycles := 0
  halfTable := #v[0, 1, 2, 3, 4, 5, 6, 7]
  cmdFs4 := 0x02
  cmdFs2l4 := 0x28
  cmdFs2l8 := 0x38
  cmdDispOnCur := 0x0E
  cmdClear := 0x01
  cmdSetAddr := 0x80

/-- Right after reset, `n` idle cycles to come. -/
def fresh (n : Nat) : State := { State.resetOf cfg with inputs := List.replicate n Inputs.idle }

/-- After the init script: the sequencer in the state `code`. -/
def ready (code : BitVec 3) (n : Nat) : State :=
  { fresh n with ini := ⟨InitCode.iReady, 3⟩, seq := { Sequencer.reset with state := code } }

/-- The state of a next state. -/
def stateOf : Result → Option State
  | .next s => some s
  | .fault _ => none
  | .refused _ => none

/-- One field of the state an operation answers. -/
def got {α : Type} (f : State → α) (i : Instr) (s : State) : Option α := (stateOf (exec i s)).map f

/-! ### Bus operations -/

/-- What the engine latches: select, byte, state. -/
def latch (s : State) : Bool × Byte × BitVec 3 := (s.eng.txRs, s.eng.txByte, s.eng.state)

theorem test_clear_issues_0x001 : got latch .clear (fresh 1) = some (false, 0x01, 1#3) := by decide
theorem test_fs4_issues_0x002 : got latch .fs4 (fresh 1) = some (false, 0x02, 1#3) := by decide
theorem test_dispOnCur_issues_0x00E : got latch .dispOnCur (fresh 1) = some (false, 0x0E, 1#3) := by decide
theorem test_fs2l4_issues_0x028 : got latch .fs2l4 (fresh 1) = some (false, 0x28, 1#3) := by decide
theorem test_fs2l8_issues_0x038 : got latch .fs2l8 (fresh 1) = some (false, 0x38, 1#3) := by decide
/-- 44 R224 example, 95 V6. -/
theorem test_goto_3_15_issues_0x0DF : got latch (.setAddr (.rowCol 3 15)) (fresh 1) = some (false, 0xDF, 1#3) := by
  decide
/-- 44 R231. -/
theorem test_goto_row_4_faults : got latch (.setAddr (.rowCol 4 0)) (fresh 1) = none := by decide
/-- 44 R226 example. -/
theorem test_putc_D_issues_0x144 : got latch (.data 0x44#8) (fresh 1) = some (true, 0x44, 1#3) := by decide
/-- 44 R221 example. -/
theorem test_sendcmd_0x0E : got latch (.sendcmd 0x0E#8) (fresh 1) = some (false, 0x0E, 1#3) := by decide

/-! ### Pseudo-operations -/

/-- The waiting words as `TW9` numbers. -/
def waiting (s : State) : List (BitVec 9) := s.script.map TxWord.tw9

/-- 44 R229 example. -/
theorem test_puts_CW : got waiting (.puts (textOf ['C', 'W', ' '])) (fresh 1) = some [0x143#9, 0x157#9, 0x120#9] := by
  decide
/-- 44 R230 example. -/
theorem test_putsAt_Mode : got waiting (.putsAt 1 0 (textOf ['M', 'o', 'd', 'e', ':'])) (fresh 1) =
    some [0x0C0#9, 0x14D#9, 0x16F#9, 0x164#9, 0x165#9, 0x13A#9] := by decide
/-- 46 R270 example. -/
theorem test_putint_minus_42 : got waiting (.putint (-42)) (fresh 1) = some [0x12D#9, 0x134#9, 0x132#9] := by decide
/-- 46 R272 example, 95 V5: 3.14 is 157/50. -/
theorem test_putfix_3_14 :
    got waiting (.putfix { num := 157, den := 50 }) (fresh 1) = some [0x133#9, 0x12E#9, 0x131#9, 0x134#9] := by decide
/-- 46 R272, R273, 95 V5: -0.5 keeps one sign, before the integer part. -/
theorem test_putfix_minus_half :
    got waiting (.putfix { num := -1, den := 2 }) (fresh 1) = some [0x12D#9, 0x130#9, 0x12E#9, 0x135#9, 0x130#9] := by
  decide
/-- 43 R192, 4 lines. -/
theorem test_init_script : got waiting .init (fresh 1) = some [0x002#9, 0x028#9, 0x00E#9, 0x001#9] := by decide

/-! ### Sequencer -/

/-- 42 R160. -/
theorem test_seqInit_leaves_when_ready : got (·.seq.state) .seqInit (ready 0#3 1) = some 1#3 := by decide
theorem test_seqInit_waits : got (·.seq.state) .seqInit (fresh 1) = some 0#3 := by decide
/-- 42 R163 example. -/
theorem test_seqSample_takes_both_flags :
    got (fun s => (s.seq.snapDir, s.seq.snapMode, s.seq.state)) .seqSample
      { ready 1#3 1 with dir := .reset .counterClockwise } = some (.counterClockwise, .full, 2#3) := by decide
/-- 42 R164 example: Full, clockwise, index 3. -/
theorem test_seqStep_wraps_full :
    got (fun s => (s.seq.motorPhase, s.seq.stepIdx, s.seq.state)) .seqStep
      { ready 2#3 1 with seq := { Sequencer.reset with stepIdx := 3 } } = some (9, 0, 3#3) := by decide
/-- 95 V3: Full after Half at index 6, counter-clockwise. -/
theorem test_seqStep_out_of_range_index :
    got (fun s => (s.seq.motorPhase, s.seq.stepIdx)) .seqStep
      { ready 2#3 1 with seq := { Sequencer.reset with stepIdx := 6, snapDir := .counterClockwise } } =
      some (3, 5) := by decide
/-- 42 R166. -/
theorem test_seqRefresh_starts_pacing : got (·.seq.state) .seqRefresh
    { ready 3#3 1 with gate := { RefreshGate.reset with state := GateCode.gDone } } = some 4#3 := by decide
theorem test_seqRefresh_waits : got (·.seq.state) .seqRefresh (ready 3#3 1) = some 3#3 := by decide
/-- 42 R167. -/
theorem test_seqPace_ends : got (·.seq.state) .seqPace
    { ready 4#3 1 with timer := ⟨0, 2, true, 2⟩ } = some 1#3 := by decide
theorem test_seqPace_waits : got (·.seq.state) .seqPace
    { ready 4#3 1 with timer := ⟨0, 1, true, 2⟩ } = some 4#3 := by decide
/-- 42 R168. -/
theorem test_seqUnused_returns : got (·.seq.state) (.seqUnused 6#3) (ready 6#3 1) = some 0#3 := by decide

/-! ### Init runner and engine -/

/-- 43 R193 example: the request and its word. -/
theorem test_initIssue : got (·.ini.state) .initIssue (fresh 1) = some 1#2 ∧ (initWord (fresh 1)).tw9 = 0x002#9 := by
  decide
/-- An engine in the state `code` with the word `DATA 0x28` latched. -/
def engine (code : BitVec 3) (nib : Bool) : Engine := ⟨code, nib, true, 0x28, false, false, false, 0⟩
/-- 43 R194 example. -/
theorem test_initWait_ends_script : got (fun s => (s.ini.state, s.ini.ptr)) .initWait
    { fresh 1 with ini := ⟨1#2, 3⟩, eng := engine 5#3 true } = some (2#2, 3) := by decide
theorem test_initWait_next_word : got (fun s => (s.ini.state, s.ini.ptr)) .initWait
    { fresh 1 with ini := ⟨1#2, 1⟩, eng := engine 5#3 true } = some (0#2, 2) := by decide
/-- 43 R196. -/
theorem test_initReady_stays : got (·.ini) .initReady (ready 0#3 1) = some ⟨2#2, 3⟩ := by decide
/-- 43 R207. -/
theorem test_initUnused_returns : got (·.ini) .initUnused { fresh 1 with ini := ⟨3#2, 2⟩ } = some ⟨0#2, 2⟩ := by decide
/-- 43 R198: the request of `I_ISSUE` is taken in the same cycle. -/
theorem test_engIdle_takes_request : got latch .engIdle (fresh 1) = some (false, 0x02, 1#3) := by decide
theorem test_engIdle_waits : got (·.eng) .engIdle (ready 1#3 1) = some .reset := by decide
/-- 43 R199 example, both phases. -/
theorem test_engSetup_high_nibble : got (fun s => (s.eng.lcdD, s.eng.lcdRs, s.eng.state)) .engSetup
    { fresh 1 with eng := engine 1#3 false } = some (0x20, true, 2#3) := by decide
theorem test_engSetup_low_nibble : got (·.eng.lcdD) .engSetup
    { fresh 1 with eng := engine 1#3 true } = some 0x80 := by decide
/-- 43 R200. -/
theorem test_engEon_strobe : got (fun s => (s.eng.lcdE, s.eng.state)) .engEon
    { fresh 1 with eng := engine 2#3 false } = some (true, 3#3) := by decide
/-- 43 R201. -/
theorem test_engEhi_releases : got (fun s => (s.eng.lcdE, s.eng.state)) .engEhi
    { fresh 1 with timer := ⟨0, 1, true, 1⟩, eng := { engine 3#3 false with lcdE := true } } =
      some (false, 4#3) := by decide
theorem test_engEhi_holds : got (fun s => (s.eng.lcdE, s.eng.state)) .engEhi
    { fresh 1 with timer := ⟨0, 0, true, 1⟩, eng := { engine 3#3 false with lcdE := true } } =
      some (true, 3#3) := by decide
/-- 43 R202 example. -/
theorem test_engElo_second_phase : got (fun s => (s.eng.nib, s.eng.state)) .engElo
    { fresh 1 with timer := ⟨0, 1, true, 1⟩, eng := engine 4#3 false } = some (true, 1#3) := by decide
/-- 43 R202, corner case: one phase at 8 lines. -/
theorem test_engElo_one_phase : got (fun s => (s.eng.nib, s.eng.state)) .engElo
    { fresh 1 with
      cfg := { cfg with busWidth := .eight }, timer := ⟨0, 1, true, 1⟩, eng := engine 4#3 false } =
      some (false, 5#3) := by decide
/-- 43 R204. -/
theorem test_engDone : got (·.eng.state) .engDone { fresh 1 with eng := engine 5#3 true } = some 0#3 := by decide
/-- 43 R207. -/
theorem test_engUnused_returns : got (·.eng) (.engUnused 7#3) { fresh 1 with eng := engine 7#3 true } =
    some (engine 0#3 true) := by decide

/-! ### Gate -/

/-- A gate in the state `code` that last rendered clockwise, Full. -/
def rendered (code : BitVec 2) (ptr : BitVec 5) : RefreshGate := ⟨code, ptr, true, .clockwise, .full⟩
/-- 45 R254 example, 95 V4. -/
theorem test_gateIdle_match : got (·.gate.state) .gateIdle
    { ready 2#3 1 with gate := rendered 0#2 5 } = some 3#2 := by decide
/-- 45 R254, R260: nothing rendered yet. -/
theorem test_gateIdle_first_render : got (fun s => (s.gate.state, s.gate.rPtr)) .gateIdle (ready 2#3 1) =
    some (1#2, 0) := by decide
/-- 45 R253 example. -/
theorem test_gateIssue : got (·.gate.state) .gateIssue { ready 3#3 1 with gate := rendered 1#2 7 } = some 2#2 ∧
    (gateWord { ready 3#3 1 with
      gate := rendered 1#2 7, seq := { Sequencer.reset with snapDir := .counterClockwise } }).tw9 = 0x143#9 := by
  decide
/-- 45 R255 example. -/
theorem test_gateWait_ends : got (·.gate) .gateWait
    { ready 3#3 1 with
      gate := { RefreshGate.reset with state := 2#2, rPtr := 18 }, eng := engine 5#3 true
      seq := { Sequencer.reset with snapDir := .counterClockwise } } =
      some ⟨3#2, 18, true, .counterClockwise, .full⟩ := by decide
theorem test_gateWait_next_word : got (·.gate) .gateWait
    { ready 3#3 1 with gate := { RefreshGate.reset with state := 2#2, rPtr := 17 }, eng := engine 5#3 true } =
      some ⟨1#2, 18, false, .clockwise, .full⟩ := by decide
/-- 45 R256. -/
theorem test_gateDone : got (·.gate) .gateDone { ready 3#3 1 with gate := rendered 3#2 18 } =
    some (rendered 0#2 18) := by decide

/-! ### Events -/

/-- 40 R122 example. -/
theorem test_tick_wraps : got (fun s => (s.timer.preCnt, s.timer.tickCount)) .tick
    { fresh 1 with timer := ⟨0, 0xFFFF, false, 0⟩ } = some (0, 0) := by decide
/-- 40 R124 with R126: the pacing delay. -/
theorem test_delayStart_pace : got (·.timer) .delayStart
    { ready 3#3 1 with timer := ⟨0, 7, false, 0⟩, gate := rendered 3#2 0 } = some ⟨0, 0, true, 2⟩ := by decide
theorem test_delayStart_settle : got (·.timer) .delayStart
    { fresh 1 with timer := ⟨0, 7, false, 0⟩, eng := engine 2#3 false } = some ⟨0, 0, true, 1⟩ := by decide
/-- 41 R145 example. -/
theorem test_dirEdge_toggles : got (·.dir.flag) .dirEdge (fresh 1) = some .counterClockwise := by decide
/-- 41 R146 example. -/
theorem test_modeEdge_toggles : got (·.mode.flag) .modeEdge { fresh 1 with mode := .reset .half } = some .full := by
  decide

/-! ### One step of the whole machine -/

/-- 40 R122, 60 R295: a tick and a delay start in one cycle clear the counter. -/
theorem test_step_delay_start_wins : (stateOf (step
    { fresh 1 with timer := ⟨0, 7, false, 0⟩, ini := ⟨1#2, 0⟩, eng := engine 2#3 false })).map
      (fun s => (s.timer.tickCount, s.timer.dlyBusy)) = some (0, true) := by decide
/-- 70 R310: `rst` in any cycle. -/
theorem test_step_reset : (stateOf (step { ready 2#3 0 with inputs := [⟨true, true, true⟩] })).map
    (fun s => (s.seq, s.ini, s.gate)) = some (.reset, .reset, .reset) := by decide
/-- 60 R291: a configuration that fails 00 R7. -/
theorem test_step_refuses_prescale_0 : stateOf (step { fresh 1 with cfg := { cfg with prescale := 0 } }) = none := by
  decide
theorem test_step_refuses_set_addr_0x81 :
    stateOf (step { fresh 1 with cfg := { cfg with cmdSetAddr := 0x81 } }) = none := by decide

/-- The first step after reset runs the placed operation (assumption 11). -/
theorem test_withFetchWord_runs :
    Result.isNext (step (State.reset.withFetchWord 16 0x001)) = true ∧
    Result.isNext (step (State.reset.withFetchWord 16 0x244)) = true ∧
    Result.isNext (step (State.reset.withFetchWord 8 2)) = true ∧
    Result.isNext (step (State.reset.withFetchWord 8 8)) = true := by
  refine ⟨?_, ?_, ?_, ?_⟩ <;> rfl

/-! ## Witnesses: states and operands that meet the premises of each statement together -/

/-- Just after reset: the first init word is requested. -/
theorem inv_fresh : CoreInv (fresh 400) := by
  constructor <;> first | decide | (constructor <;> decide)

/-- The first init word, about to raise the strobe of its first phase: a delay starts. -/
def eon (n : Nat) : State :=
  { fresh n with ini := ⟨1#2, 0⟩, eng := ⟨2#3, false, false, 0x02, false, false, false, 0x00⟩ }
theorem inv_eon : CoreInv (eon 400) := by
  constructor <;> first | decide | (constructor <;> decide)

/-- The same with a hold of no ticks. -/
theorem inv_eon_settle_0 : CoreInv { eon 400 with cfg := { cfg with settleTicks := 0 } } := by
  constructor <;> first | decide | (constructor <;> decide)

/-- The first init word, its second strobe high and its hold done: the word is about to be complete. -/
def ehi (n : Nat) : State :=
  { fresh n with
    ini := ⟨1#2, 0⟩, eng := ⟨3#3, true, false, 0x02, true, false, false, 0x20⟩, timer := ⟨0, 1, true, 1⟩
    display := { Display.initial with half := some 0#6 } }
theorem inv_ehi : CoreInv (ehi 400) := by
  constructor <;> first | decide | (constructor <;> decide)

/-- `S_SAMPLE`, nothing rendered yet. -/
theorem inv_sample : CoreInv (ready 1#3 400) := by
  constructor <;> first | decide | (constructor <;> decide)

/-- `S_SAMPLE`, the pair already rendered. -/
def sampleSame (n : Nat) : State := { ready 1#3 n with gate := rendered 0#2 18 }
theorem inv_sampleSame : CoreInv (sampleSame 400) := by
  constructor <;> first | decide | (constructor <;> decide)

/-- `S_STEP`, the pair already rendered. -/
def stepSame (n : Nat) : State := { ready 2#3 n with gate := rendered 0#2 18 }
theorem inv_stepSame : CoreInv (stepSame 400) := by
  constructor <;> first | decide | (constructor <;> decide)

/-- The gate reports done: the pacing delay starts. -/
def gateReports (n : Nat) : State := { ready 3#3 n with gate := rendered 3#2 18 }
theorem inv_gateReports : CoreInv (gateReports 400) := by
  constructor <;> first | decide | (constructor <;> decide)

/-- The gate's first word, the clear, has been sent. -/
def clearSent (n : Nat) : State :=
  { ready 3#3 n with
    gate := { RefreshGate.reset with state := 2#2 }, eng := ⟨5#3, true, false, 0x01, false, false, false, 0x10⟩ }
theorem inv_clearSent : CoreInv (clearSent 400) := by
  constructor <;> first | decide | (constructor <;> decide)

/-- Idle inputs hold no reset. -/
theorem idle_inputs {s : State} {n : Nat} (k : Nat) (h : s.inputs = List.replicate n Inputs.idle) (hk : k ≤ n) :
    NoResetFor k s := by
  refine ⟨by simpa [h] using hk, fun i hi => ?_⟩
  rw [h] at hi
  obtain rfl := List.eq_of_mem_replicate (List.mem_of_mem_take hi)
  rfl

/-- The first init word at 8 lines, its only strobe high and its hold done. -/
def ehi8 (n : Nat) : State :=
  { fresh n with
    cfg := { cfg with busWidth := .eight }, ini := ⟨1#2, 0⟩
    eng := ⟨3#3, false, false, 0x38, true, false, false, 0x38⟩, timer := ⟨0, 1, true, 1⟩ }
theorem inv_ehi8 : CoreInv (ehi8 400) := by
  constructor <;> first | decide | (constructor <;> decide)

/-- Just after reset at 8 lines. -/
def fresh8 (n : Nat) : State := { fresh n with cfg := { cfg with busWidth := .eight } }
theorem inv_fresh8 : CoreInv (fresh8 400) := by
  constructor <;> first | decide | (constructor <;> decide)

/-- A delay starts at `PRESCALE = 3`, two cycles before the first tick. -/
def eon3 (n : Nat) : State := { eon n with cfg := { cfg with prescale := 3 } }
theorem inv_eon3 : CoreInv (eon3 400) := by
  constructor <;> first | decide | (constructor <;> decide)

/-- The first init word between its two phases: the receiver holds the first. -/
def elo (n : Nat) : State :=
  { fresh n with
    ini := ⟨1#2, 0⟩, eng := ⟨4#3, false, false, 0x02, false, false, false, 0x00⟩, timer := ⟨0, 0, true, 1⟩
    display := { Display.initial with half := some 0#6 } }
theorem inv_elo : CoreInv (elo 400) := by
  constructor <;> first | decide | (constructor <;> decide)

/-- A valid configuration without a reset always steps. -/
theorem steps (s : State) (hv : s.cfg.valid = true) (hr : (nextInputs s).rst = false) : ∃ t, step s = .next t :=
  ⟨_, step_of_run s hv hr⟩

theorem witness_DecodeEncodeRoundTrip : cfg.valid = true ∧ cfg.distinctCommands = true ∧
    (Instr.setAddr (.addr 0x7F#7)).canonical cfg = true ∧ (Instr.sendcmd 0x06#8).canonical cfg = true := by decide
theorem witness_DecodedWordReencodes : cfg.valid = true ∧
    decode cfg .busw10 0x0FF#10 = .ok (.setAddr (.addr 0x7F#7)) := ⟨by decide, rfl⟩
theorem witness_TransactionWordLayout : (0x101#10).getLsbD 8 = true ∧ (0x244#10).getLsbD 8 = false := by decide
theorem witness_BusOperationsTaken : (fresh 1).eng.state = EngCode.dIdle := by decide
theorem witness_BusOperationsIgnoredWhenBusy : (eon 1).eng.state ≠ EngCode.dIdle ∧ (3 : Nat) ≤ 3 := by decide
theorem witness_GotoSetsRowBasePlusColumn : (fresh 1).eng.state = EngCode.dIdle ∧
    ((3, 0x50) : Nat × Nat) = (3, 0x50) ∧ (3 : Nat) < 4 := by decide
theorem witness_PseudoOperationsIssueTheirWords : ((0, 0x00) : Nat × Nat) = (0, 0x00) ∧ (3 : Nat) < 4 := by decide
theorem witness_RenderIntegerIsDecimal : (0 : Nat) < 1 := by decide
theorem witness_PrescalerEachCycle : (fresh 1).cfg.valid = true ∧ (fresh 1).timer.preCnt < (fresh 1).cfg.prescale ∧
    (nextInputs (fresh 1)).rst = false := by decide
/-- Each clause: a delay start, a tick alone, neither (`PRESCALE = 2`). -/
theorem witness_TickCounterEachCycle :
    (eon 1).cfg.valid = true ∧ (nextInputs (eon 1)).rst = false ∧ dlyStart (eon 1) = true ∧
    dlyStart (fresh 1) = false ∧ (fresh 1).timer.preCnt = (fresh 1).cfg.prescale - 1 ∧
    (let s := { fresh 1 with cfg := { cfg with prescale := 2 } }
     s.cfg.valid = true ∧ dlyStart s = false ∧ s.timer.preCnt ≠ s.cfg.prescale - 1) := by decide
theorem witness_TickPeriod : (fresh 5).cfg.valid = true ∧ (fresh 5).timer.preCnt = 0 ∧ NoResetFor 5 (fresh 5) :=
  ⟨by decide, by decide, ⟨by decide, by decide⟩⟩
theorem witness_DelayChannelEachCycle : dlyStart (eon 1) = true ∧ dlyStart (fresh 1) = false ∧
    CoreInv (ehi 400) ∧ dlyStart (ehi 400) = true ∧ (ehi 400).timer.dlyBusy = true :=
  ⟨by decide, by decide, inv_ehi, by decide, by decide⟩

/-- At `PRESCALE = 1` the first tick after any cycle is in the next one. -/
theorem tick_after_one (s : State) (hv : s.cfg.valid = true) (hr : (nextInputs s).rst = false)
    (ht : tickEvent (cycleOut (nextInputs s) s) = true) : ∃ t, after 1 s = .next t ∧ tickEvent t = true :=
  ⟨_, after_succ 0 (step_of_run s hv hr), ht⟩

/-- A settle hold of one tick, a pacing delay of two, and a hold of none, all with `k = 1`. -/
theorem witness_DelayLength :
    (CoreInv (eon 400) ∧ dlyStart (eon 400) = true ∧ (∃ t, after 1 (eon 400) = .next t ∧ tickEvent t = true) ∧
      NoResetFor 3 (eon 400) ∧ (dlyTicks (eon 400)).toNat = 1) ∧
    (CoreInv (gateReports 400) ∧ dlyStart (gateReports 400) = true ∧
      (∃ t, after 1 (gateReports 400) = .next t ∧ tickEvent t = true) ∧ (dlyTicks (gateReports 400)).toNat = 2) ∧
    (CoreInv { eon 400 with cfg := { cfg with settleTicks := 0 } } ∧
      dlyStart { eon 400 with cfg := { cfg with settleTicks := 0 } } = true ∧
      (dlyTicks { eon 400 with cfg := { cfg with settleTicks := 0 } }).toNat = 0) :=
  ⟨⟨inv_eon, by decide, tick_after_one _ (by decide) (by decide) (by decide), idle_inputs 3 rfl (by decide), by decide⟩,
    ⟨inv_gateReports, by decide, tick_after_one _ (by decide) (by decide) (by decide), by decide⟩,
    ⟨inv_eon_settle_0, by decide, by decide⟩⟩

/-- A distance of two cycles to the first tick: none after one cycle, one after two. -/
theorem witness_DelayLength_k2 : CoreInv (eon3 400) ∧ dlyStart (eon3 400) = true ∧
    (∃ t, after 2 (eon3 400) = .next t ∧ tickEvent t = true) ∧
    (∀ j t, 1 ≤ j → j < 2 → after j (eon3 400) = .next t → tickEvent t = false) ∧
    (dlyTicks (eon3 400)).toNat = 1 ∧ NoResetFor 3 (eon3 400) := by
  have h1 := step_of_run (eon3 400) (by decide) (by decide)
  have h2 := step_of_run (cycleOut (nextInputs (eon3 400)) (eon3 400)) (by decide) (by decide)
  refine ⟨inv_eon3, by decide, ⟨_, (after_succ 1 h1).trans (after_succ 0 h2), by decide⟩, fun j t hj hk ht => ?_,
    by decide, idle_inputs 3 rfl (by decide)⟩
  obtain rfl : j = 1 := by omega
  rw [after_succ 0 h1] at ht
  cases ht
  decide

/-- A falling edge in this cycle, with a lockout of two cycles. -/
def falling : State :=
  { fresh 9 with
    cfg := { cfg with debounceCycles := 2 }, dir := placeEdge (.reset .clockwise), mode := placeEdge (.reset .full) }
theorem witness_EdgeLatchesEachCycle : falling.cfg.valid = true ∧ (nextInputs falling).rst = false ∧
    falling.dir.prev = true ∧ falling.dir.sync1 = false ∧ falling.dir.lock = 0 ∧
    ¬((fresh 9).dir.prev = true ∧ (fresh 9).dir.sync1 = false) := by decide
theorem witness_LockoutWindow : falling.cfg.valid = true ∧ falling.dir.accept = true ∧ falling.mode.accept = true ∧
    NoResetFor 4 falling ∧ 2 ≤ falling.cfg.debounceCycles ∧ falling.cfg.debounceCycles < 3 ∧ falling.dir.fall = true ∧ ∃ t, step falling = .next t :=
  ⟨by decide, by decide, by decide, ⟨by decide, by decide⟩, by decide, by decide, by decide,
    steps _ (by decide) (by decide)⟩
/-- Both buttons pressed from this cycle on. -/
def pressed : State := { fresh 0 with inputs := List.replicate 3 ⟨false, false, false⟩ }
theorem witness_PressLatency : pressed.cfg.valid = true ∧ NoResetFor 3 pressed ∧ pressed.dir.sync0 = true ∧
    (nextInputs pressed).dirBtnN = false ∧ pressed.mode.sync0 = true ∧ (nextInputs pressed).modeBtnN = false :=
  ⟨by decide, ⟨by decide, by decide⟩, by decide, by decide, by decide, by decide⟩
theorem witness_ButtonsReachOnlyTheSynchroniser :
    (⟨false, true, true⟩ : Inputs).rst = (⟨false, false, true⟩ : Inputs).rst ∧
    (∃ t, step { fresh 0 with inputs := ⟨false, true, true⟩ :: [] } = .next t) ∧
    ∃ u, step { fresh 0 with inputs := ⟨false, false, true⟩ :: [] } = .next u :=
  ⟨rfl, steps _ (by decide) (by decide), steps _ (by decide) (by decide)⟩

theorem witness_MotorStepResult : (ready 2#3 1).seq.state = SeqCode.sStep ∧ (ready 2#3 1).seq.snapMode = .full ∧
    ({ ready 2#3 1 with seq := { Sequencer.reset with snapMode := .half } } : State).seq.snapMode = .half ∧
    (ready 2#3 1).seq.snapDir = .clockwise := by decide
theorem witness_SequencerUnusedCodes : 5 ≤ (5#3).toNat ∧ (ready 5#3 1).seq.state = 5#3 ∧ CoreInv (fresh 400) :=
  ⟨by decide, by decide, inv_fresh⟩
theorem witness_OutOfRangeIndexRecovers : 4 ≤ (4#3).toNat ∧ 1 ≤ (4#3).toNat - 3 ∧ 4 ≤ (7#3).toNat := by decide
theorem witness_PortsHaveOneWriter : (nextInputs (fresh 1)).rst = false ∧ (∃ t, step (fresh 1) = .next t) ∧
    (fresh 1).seq.state ≠ SeqCode.sStep ∧ (fresh 1).eng.state = EngCode.dIdle :=
  ⟨by decide, steps _ (by decide) (by decide), by decide, by decide⟩
theorem witness_SequencerNeverLeavesItsLoop : (nextInputs (ready 4#3 1)).rst = false ∧
    (∃ t, step (ready 4#3 1) = .next t) ∧ (ready 4#3 1).seq.state = SeqCode.sPace ∧
    (∃ t, step (ready 1#3 1) = .next t) ∧ (∃ t, step (ready 2#3 1) = .next t) ∧
    ∃ t, step (ready 3#3 1) = .next t :=
  ⟨by decide, steps _ (by decide) (by decide), by decide, steps _ (by decide) (by decide),
    steps _ (by decide) (by decide), steps _ (by decide) (by decide)⟩
theorem witness_SnapshotOnlyInSample : (nextInputs (clearSent 400)).rst = false ∧
    (∃ t, step (clearSent 400) = .next t) ∧ CoreInv (clearSent 400) ∧
    (clearSent 400).gate.state ≠ GateCode.gIdle ∧ (∃ t, step (ready 1#3 400) = .next t) :=
  ⟨by decide, steps _ (by decide) (by decide), inv_clearSent, by decide, steps _ (by decide) (by decide)⟩
/-- Both lengths: with the pair rendered, and not. -/
theorem witness_IterationLength :
    (CoreInv (sampleSame 400) ∧ (sampleSame 400).cfg.prescale = 1 ∧ (sampleSame 400).seq.state = SeqCode.sSample ∧
      NoResetFor ((sampleSame 400).cfg.paceTicks.toNat + 4) (sampleSame 400) ∧
      (sampleSame 400).gate.lastValid = true ∧ (sampleSame 400).gate.lastDir = (sampleSame 400).dir.flag ∧
      (sampleSame 400).gate.lastMode = (sampleSame 400).mode.flag) ∧
    (CoreInv (ready 1#3 400) ∧ (ready 1#3 400).gate.lastValid = false ∧
      NoResetFor ((ready 1#3 400).cfg.paceTicks.toNat + 4 + 19 * (transactionTime (ready 1#3 400).cfg + 1))
        (ready 1#3 400)) :=
  ⟨⟨inv_sampleSame, by decide, by decide, idle_inputs _ rfl (by decide), by decide, by decide, by decide⟩,
    ⟨inv_sample, by decide, idle_inputs _ rfl (by decide)⟩⟩

theorem witness_InitRunnerArmsResult : (clearSent 1).eng.state = EngCode.dDone ∧
    (ready 0#3 1).ini.ptr.toNat + 1 = 4 ∧ (fresh 1).ini.ptr.toNat + 1 ≠ 4 ∧ (fresh8 1).ini.ptr.toNat + 1 ≠ 3 ∧
    (fresh 1).eng.state ≠ EngCode.dDone ∧ (fresh 1).ini.state ≠ InitCode.iReady := by decide
theorem witness_EngineArmsResult : txStart (fresh 1) = true ∧ txStart (ready 1#3 1) = false ∧
    (fresh 1).cfg.busWidth = .four ∧ (fresh 1).eng.nib = false ∧ (ehi 1).eng.nib = true := by decide
theorem witness_BusUnusedCodes : ({ fresh 1 with ini := ⟨3#2, 0⟩ } : State).ini.state = 3#2 ∧ 6 ≤ (6#3).toNat ∧
    ({ fresh 1 with eng := engine 6#3 false } : State).eng.state = 6#3 ∧ CoreInv (fresh 400) :=
  ⟨by decide, by decide, by decide, inv_fresh⟩
theorem witness_LinesStableUnderStrobe : CoreInv (ehi 400) ∧ (nextInputs (ehi 400)).rst = false ∧
    (∃ t, step (ehi 400) = .next t) ∧ (ehi 400).eng.lcdE = true :=
  ⟨inv_ehi, by decide, steps _ (by decide) (by decide), by decide⟩
/-- Both clauses: the last strobe falls, and it does not. -/
theorem witness_WordDeliveredOnPins : CoreInv (ehi 400) ∧ (nextInputs (ehi 400)).rst = false ∧
    (∃ t, step (ehi 400) = .next t) ∧
    ((ehi 400).eng.state = EngCode.dEhi ∧ dlyDone (ehi 400) = true ∧ (ehi 400).eng.nib = true) ∧
    CoreInv (eon 400) ∧ (∃ t, step (eon 400) = .next t) ∧ (eon 400).eng.state ≠ EngCode.dEhi :=
  ⟨inv_ehi, by decide, steps _ (by decide) (by decide), by decide, inv_eon, steps _ (by decide) (by decide), by decide⟩
/-- At 8 lines: the only strobe falls. -/
theorem witness_WordDeliveredOnPins_8 : CoreInv (ehi8 400) ∧ (nextInputs (ehi8 400)).rst = false ∧
    (∃ t, step (ehi8 400) = .next t) ∧ (ehi8 400).eng.state = EngCode.dEhi ∧ dlyDone (ehi8 400) = true ∧
    (ehi8 400).cfg.busWidth = .eight :=
  ⟨inv_ehi8, by decide, steps _ (by decide) (by decide), by decide, by decide, by decide⟩
theorem witness_TransactionTime_8 : CoreInv (fresh8 400) ∧ (fresh8 400).cfg.prescale = 1 ∧
    txStart (fresh8 400) = true ∧ NoResetFor (transactionTime (fresh8 400).cfg) (fresh8 400) ∧
    (fresh8 400).cfg.busWidth.nph = 1 :=
  ⟨inv_fresh8, by decide, by decide, idle_inputs _ rfl (by decide), by decide⟩
theorem witness_TransactionTime : CoreInv (fresh 400) ∧ (fresh 400).cfg.prescale = 1 ∧ txStart (fresh 400) = true ∧
    NoResetFor (transactionTime (fresh 400).cfg) (fresh 400) ∧ 1 < (fresh 400).cfg.busWidth.nph :=
  ⟨inv_fresh, by decide, by decide, idle_inputs _ rfl (by decide), by decide⟩
theorem witness_TransactionAlwaysEnds : CoreInv (fresh 400) ∧ txStart (fresh 400) = true ∧ NoResetFor 13 (fresh 400) :=
  ⟨inv_fresh, by decide, idle_inputs _ rfl (by decide)⟩
/-- Both parts, at both bus widths: `INIT_LEN * (T + 1)` is 56 at 4 lines and 24 at 8 (43 R195). -/
theorem witness_InitDuration : cfg.valid = true ∧ cfg.prescale = 1 ∧
    (CoreInv (fresh 400) ∧ (fresh 400).cfg = cfg ∧ (fresh 400).ini.state = InitCode.iIssue ∧
      NoResetFor (transactionTime cfg + 1) (fresh 400)) ∧
    NoResetFor (4 * (transactionTime cfg + 1)) (fresh 400) ∧ 4 * (transactionTime cfg + 1) = 56 ∧
    (CoreInv (fresh8 400) ∧ (fresh8 400).cfg.valid = true ∧ (fresh8 400).ini.state = InitCode.iIssue) ∧
    3 * (transactionTime (fresh8 400).cfg + 1) = 24 :=
  ⟨by decide, by decide, ⟨inv_fresh, rfl, by decide, idle_inputs _ rfl (by decide)⟩, idle_inputs _ rfl (by decide),
    by decide, ⟨inv_fresh8, by decide, by decide⟩, by decide⟩

theorem witness_GateArmsResult : gateStart (ready 2#3 1) = true ∧ gateChanged (ready 2#3 1) = true ∧
    gateStart (stepSame 1) = true ∧ gateChanged (stepSame 1) = false ∧ gateStart (fresh 1) = false ∧
    txDone (clearSent 1) = true ∧ (clearSent 1).gate.rPtr.toNat ≠ 18 ∧ (stepSame 1).gate.rPtr.toNat = 18 ∧
    txDone (fresh 1) = false ∧ (renderScript cfg .clockwise .full)[18]? = some ⟨true, 0x6C⟩ ∧
    (stepSame 1).ini.state = InitCode.iReady := by decide
/-- One word for each clause: data, clear, set-address, another command, a read. -/
theorem witness_RenderScriptShowsLabels : observable cfg = true ∧ Display.initial.mem.wf ∧
    Display.initial.desync = false ∧ (txOfBus 0x244#10).rs = true ∧ (txOfBus 0x001#10).byte = cfg.cmdClear ∧
    ((txOfBus 0x0FF#10).byte ≠ cfg.cmdClear ∧ (txOfBus 0x0FF#10).byte.getLsbD 7 = true) ∧
    ((txOfBus 0x00E#10).byte ≠ cfg.cmdClear ∧ (txOfBus 0x00E#10).byte.getLsbD 7 = false) ∧
    (0x101#10).getLsbD 8 = true := by decide

/-- 20 R74: the counter wraps at 0x7F, and the write is at 0x7F. -/
theorem test_react_data_wraps : ((Display.initial.react cfg ⟨false, 0xFF⟩).react cfg ⟨true, 0x44⟩) =
    { Display.initial with mem := [(0x7F, 0x44)], ac := 0 } := by decide
/-- 20 R74: display-on has no effect on cells or counter. -/
theorem test_react_other_command : (⟨[(3, 0x44)], 5, none, none, false⟩ : Display).react cfg ⟨false, 0x0E⟩ =
    ⟨[(3, 0x44)], 5, none, none, false⟩ := by decide
/-- The contract in the middle of a render. -/
theorem witness_DisplayContractKept : CoreInv (clearSent 400) ∧ DisplayContract (clearSent 400) ∧
    ∃ t, step (clearSent 400) = .next t :=
  ⟨inv_clearSent,
    ⟨fun h => absurd (by decide) h, fun _ _ _ => ⟨Display.initial, by decide⟩, fun _ _ h => absurd h (by decide)⟩,
    steps _ (by decide) (by decide)⟩
/-- The first init word, its first strobe high, and a reset in this cycle. -/
def ehiFirst : State :=
  { fresh 0 with
    ini := ⟨1#2, 0⟩, eng := ⟨3#3, false, false, 0x02, true, false, false, 0x00⟩, timer := ⟨0, 0, true, 1⟩
    inputs := [⟨true, true, true⟩] }
/-- The resets: between two phases, under the first strobe, and where nothing is cut. -/
theorem witness_DisplayContractKept_reset :
    (CoreInv ehiFirst ∧ ehiFirst.eng.lcdE = true ∧ ehiFirst.display.half = none ∧ ∃ t, step ehiFirst = .next t) ∧
    (CoreInv { elo 400 with inputs := [⟨true, true, true⟩] } ∧ (elo 400).eng.lcdE = false ∧
      (elo 400).display.half.isSome = true) ∧
    (CoreInv (ehi8 400) ∧ (ehi8 400).cfg.busWidth ≠ .four) ∧
    ∃ t, step { elo 400 with inputs := [⟨true, true, true⟩] } = .next t :=
  ⟨⟨by constructor <;> first | decide | (constructor <;> decide), by decide, by decide,
      ⟨_, step_of_reset _ (by decide) (by decide)⟩⟩,
    ⟨by constructor <;> first | decide | (constructor <;> decide), by decide, by decide⟩, ⟨inv_ehi8, by decide⟩,
    ⟨_, step_of_reset _ (by decide) (by decide)⟩⟩
theorem witness_DisplayContractAtReset : (fresh 1).gate = (State.resetOf cfg).gate := rfl
theorem witness_GateSilentOnMatch : CoreInv (stepSame 400) ∧ NoResetFor 2 (stepSame 400) ∧
    gateStart (stepSame 400) = true ∧ (stepSame 400).gate.lastValid = true ∧
    (stepSame 400).gate.lastDir = (stepSame 400).seq.snapDir ∧
    (stepSame 400).gate.lastMode = (stepSame 400).seq.snapMode :=
  ⟨inv_stepSame, idle_inputs _ rfl (by decide), by decide, by decide, by decide, by decide⟩

theorem witness_StepRunsDecodedOperations : (eon 1).cfg.valid = true ∧ (nextInputs (eon 1)).rst = false ∧
    hostWord (eon 1) = none ∧ decode (eon 1).cfg .engState ((eon 1).eng.state.setWidth 10) = .ok .engEon ∧
    Instr.delayStart ∈ eventOps (eventVector (eon 1)) ∧ Instr.tick ∈ eventOps (eventVector (eon 1)) ∧
    Instr.dirEdge ∈ eventOps (eventVector falling) ∧ Instr.modeEdge ∈ eventOps (eventVector falling) :=
  ⟨by decide, by decide, by decide, rfl, by decide, by decide, by decide, by decide⟩
theorem witness_WaitingWordRunsItsBusOperation :
    let s := { ready 1#3 1 with script := [⟨true, 0x44⟩] }
    s.cfg.valid = true ∧ (nextInputs s).rst = false ∧ s.script = ⟨true, 0x44⟩ :: [] ∧
      s.eng.state = EngCode.dIdle ∧ txStart s = false := by decide
theorem witness_CoreInvKept : CoreInv (ehi 400) ∧ ∃ t, step (ehi 400) = .next t :=
  ⟨inv_ehi, steps _ (by decide) (by decide)⟩
theorem witness_CoreInvAtReset : cfg.valid = true ∧ Config.reference.valid = true := by decide
theorem witness_RequestsNeverCollide : CoreInv (fresh 400) ∧ txStart (fresh 400) = true :=
  ⟨inv_fresh, by decide⟩
theorem witness_ResetHasPriority :
    (ready 2#3 0).cfg.valid = true ∧ (nextInputs { ready 2#3 0 with inputs := [⟨true, true, true⟩] }).rst = true := by
  decide
theorem witness_StepIsTotal : 1 ≤ cfg.prescale ∧ cfg.cmdSetAddr.setWidth 7 = 0#7 ∧
    ({ cfg with prescale := 0 } : Config).prescale = 0 ∧ (0x81#8).setWidth 7 ≠ 0#7 ∧ (fresh 1).display.mem.wf := by
  decide

/-- The frames: each listed operation answers a next state somewhere (`GOTO` on a row in range). -/
theorem witness_Frames :
    [Instr.seqInit, .seqSample, .seqStep, .seqRefresh, .seqPace, .seqUnused 5#3, .initIssue, .initWait, .initReady,
      .initUnused, .engIdle, .engSetup, .engEon, .engEhi, .engElo, .engDone, .engUnused 6#3, .clear, .fs4, .dispOnCur,
      .fs2l4, .fs2l8, .setAddr (.rowCol 3 15), .setAddr (.addr 0x40#7), .data 0x44#8, .sendcmd 0x0E#8, .gateIdle,
      .gateIssue, .gateWait, .gateDone, .tick, .delayStart, .dirEdge, .modeEdge, .puts [], .putsAt 1 0 [0x44],
      .putint 7, .putfix { num := 1, den := 2 }, .init].all (fun i => Result.isNext (exec i (fresh 1))) = true := by
  decide

end Sys2Proof.Tests
end

section
/-! PROOFS. Who writes the output ports, and who asks for the delay channel and the engine (spec/10_state.md R43, R44,
R46). -/

namespace Sys2Proof.Machine

/-! ## One writer per port (10 R46) -/

section Ports
variable {s t : State}

/-- A step without reset is the cycle in which every operation runs. -/
theorem eq_cycleOut_of_step (hr : (nextInputs s).rst = false) (h : step s = .next t) :
    t = cycleOut (nextInputs s) s := by
  obtain ⟨-, ⟨hreset, -⟩ | ⟨-, ht⟩⟩ := step_eq_next h
  · rw [hr] at hreset; cases hreset
  · exact ht

/-- Every arm of the sequencer but `S_STEP` keeps the motor port (42 R164). -/
theorem seqOut_motorPhase (h : s.seq.state ≠ SeqCode.sStep) : (seqOut s).motorPhase = s.seq.motorPhase := by
  unfold seqOut
  rw [if_neg h]
  split_ifs <;> rfl

/-- Every arm of the engine but `D_EON` and the end of `D_EHI` keeps the strobe (43 R200, R201). -/
theorem engOut_lcdE (hEon : s.eng.state ≠ EngCode.dEon)
    (hEhi : ¬(s.eng.state = EngCode.dEhi ∧ dlyDone s = true)) : (engOut s).lcdE = s.eng.lcdE := by
  by_cases hState : s.eng.state = EngCode.dEhi
  · have hRuns : ¬dlyDone s = true := fun hDone => hEhi ⟨hState, hDone⟩
    rw [engOut_ehi hState, if_neg hRuns]
  · unfold engOut
    rw [if_neg hEon, if_neg hState]
    split_ifs <;> rfl

/-- Every arm of the engine but `D_SETUP` keeps the select and data lines (43 R199). -/
theorem engOut_busLines (h : s.eng.state ≠ EngCode.dSetup) :
    (engOut s).lcdRs = s.eng.lcdRs ∧ (engOut s).lcdRw = s.eng.lcdRw ∧ (engOut s).lcdD = s.eng.lcdD := by
  unfold engOut
  rw [if_neg h]
  split_ifs <;> exact ⟨rfl, rfl, rfl⟩

/-- A waiting word that the engine takes moves no display line, so the engine's arm alone decides about them. -/
theorem engineOut_lines :
    ((engineOut s).lcdE = s.eng.lcdE ∧ (engineOut s).lcdRs = s.eng.lcdRs ∧
      (engineOut s).lcdRw = s.eng.lcdRw ∧ (engineOut s).lcdD = s.eng.lcdD) ∨ engineOut s = engOut s := by
  unfold engineOut
  cases hostWord s with
  | none => exact .inr rfl
  | some w => exact .inl ⟨rfl, rfl, rfl, rfl⟩

end Ports

/-- Settles O28: without a reset each port shows its owner's register after the owner's arm, and every arm but the
writing ones keeps it. -/
theorem portsHaveOneWriter : Obligations.PortsHaveOneWriter := by
  intro s t hr h
  obtain rfl := eq_cycleOut_of_step hr h
  refine ⟨seqOut_motorPhase, fun hIdle => ?_⟩
  obtain ⟨hSetup, hEon, hEhi⟩ := by simpa only [not_or] using hIdle
  show (engineOut s).lcdE = s.eng.lcdE ∧ (engineOut s).lcdRs = s.eng.lcdRs ∧
    (engineOut s).lcdRw = s.eng.lcdRw ∧ (engineOut s).lcdD = s.eng.lcdD
  obtain hkept | harm := engineOut_lines (s := s)
  · exact hkept
  · rw [harm]
    exact ⟨engOut_lcdE hEon hEhi, engOut_busLines hSetup⟩

/-! ## One requester at a time (10 R43, R44) -/

section Requests
variable {s : State}

theorem seqDlyStart_iff : seqDlyStart s = true ↔ s.seq.state = SeqCode.sRefresh ∧ s.gate.state = GateCode.gDone := by
  simp [seqDlyStart, gateDone]

theorem dbmDlyStart_iff :
    dbmDlyStart s = true ↔ s.eng.state = EngCode.dEon ∨ (s.eng.state = EngCode.dEhi ∧ dlyDone s = true) := by
  simp [dbmDlyStart]

theorem initTxStart_iff : initTxStart s = true ↔ s.ini.state = InitCode.iIssue := by
  simp [initTxStart]

theorem gateTxStart_iff : gateTxStart s = true ↔ s.gate.state = GateCode.gIssue := by
  simp [gateTxStart]

theorem txStart_iff : txStart s = true ↔ s.ini.state = InitCode.iIssue ∨ s.gate.state = GateCode.gIssue := by
  simp [txStart, initTxStart_iff, gateTxStart_iff]

/-- The gate runs after the init script only: it runs in `S_REFRESH`, and before `I_READY` the sequencer is in
`S_INIT`. -/
theorem Handshake.ready_of_gateRuns (h : Handshake s) (hg : s.gate.state ≠ GateCode.gIdle) :
    s.ini.state = InitCode.iReady := by
  by_contra hini
  have hRefresh : s.seq.state = SeqCode.sRefresh := h.gateRuns.mp hg
  have hInit : s.seq.state = SeqCode.sInit := h.initFirst hini
  exact absurd (hRefresh.symm.trans hInit) (by decide)

/-- A running gate that does not wait for a transaction leaves the engine idle. -/
theorem Handshake.engIdle_of_gateRuns (h : Handshake s) (hg : s.gate.state ≠ GateCode.gIdle)
    (hw : s.gate.state ≠ GateCode.gWait) : s.eng.state = EngCode.dIdle := by
  by_contra heng
  exact hw ((h.gateWaits (h.ready_of_gateRuns hg)).mp heng)

/-- The sequencer starts its delay while the engine is idle, and the engine starts its delays while it is not. -/
theorem Handshake.not_both_dlyStart (h : Handshake s) : ¬(seqDlyStart s = true ∧ dbmDlyStart s = true) := by
  rw [seqDlyStart_iff, dbmDlyStart_iff]
  rintro ⟨⟨-, hDone⟩, hEng⟩
  have hIdle : s.eng.state = EngCode.dIdle := h.engIdle_of_gateRuns (by simp [hDone]) (by simp [hDone])
  simp [hIdle] at hEng

/-- Both requesters ask an idle engine only. -/
theorem Handshake.engIdle_of_txStart (h : Handshake s) (htx : txStart s = true) : s.eng.state = EngCode.dIdle := by
  obtain hInit | hGate := txStart_iff.mp htx
  · exact h.initAsksIdle hInit
  · exact h.engIdle_of_gateRuns (by simp [hGate]) (by simp [hGate])

/-- The gate asks after the init script only, the init runner during it only. -/
theorem Handshake.not_both_txStart (h : Handshake s) : ¬(initTxStart s = true ∧ gateTxStart s = true) := by
  rw [initTxStart_iff, gateTxStart_iff]
  rintro ⟨hInit, hGate⟩
  have hReady : s.ini.state = InitCode.iReady := h.ready_of_gateRuns (by simp [hGate])
  exact absurd (hInit.symm.trans hReady) (by decide)

end Requests

/-- Settles O51, from the handshake of a running core. -/
theorem requestsNeverCollide : Obligations.RequestsNeverCollide := fun _ h =>
  ⟨h.handshake.not_both_dlyStart, h.handshake.engIdle_of_txStart, h.handshake.not_both_txStart⟩

end Sys2Proof.Machine
end

section
/-! PROOFS. The tick timer: the prescaler, the tick counter and the delay channel in every cycle, the tick period, and
the length of a delay (spec/40_tick_timer.md). -/

namespace Sys2Proof

/-! ## The configuration -/

theorem Config.prescale_pos {c : Config} (hv : c.valid = true) : 0 < c.prescale := by
  simp only [Config.valid, Bool.and_eq_true, bne_iff_ne] at hv
  exact Nat.pos_of_ne_zero hv.1

/-- `PRE_W` bits hold every legal `pre_cnt` (00 R7). -/
theorem Config.prescale_le_two_pow_preW (c : Config) : c.prescale ≤ 2 ^ c.preW := by
  unfold Config.preW
  split_ifs with h
  · exact h
  · have hlog : c.prescale - 1 < 2 ^ (Nat.log2 (c.prescale - 1) + 1) := Nat.lt_log2_self
    omega

end Sys2Proof

namespace Sys2Proof.Machine

/-! ## The registers after a cycle without reset, field by field -/

section CycleOut
variable (i : Inputs) (s : State)

@[simp] theorem cycleOut_cfg : (cycleOut i s).cfg = s.cfg := rfl
@[simp] theorem cycleOut_timer : (cycleOut i s).timer = timerOut s := rfl
@[simp] theorem cycleOut_seq : (cycleOut i s).seq = seqOut s := rfl
@[simp] theorem cycleOut_ini : (cycleOut i s).ini = iniOut s := rfl
@[simp] theorem cycleOut_eng : (cycleOut i s).eng = engineOut s := rfl
@[simp] theorem cycleOut_gate : (cycleOut i s).gate = gateOut s := rfl

end CycleOut

/-- Without a reset, a run of `n + 1` cycles is one cycle and then the other `n`. -/
theorem after_succ_of_noReset {n : Nat} {s : State} (hv : s.cfg.valid = true) (hr : NoResetFor (n + 1) s) :
    after (n + 1) s = after n (cycleOut (nextInputs s) s) :=
  after_succ n (step_of_run s hv hr.head)

/-! ## The prescaler (40 R120, R121, R123) -/

section Prescaler
variable {s : State}

theorem tickEvent_iff : tickEvent s = true ↔ s.timer.preCnt = s.cfg.prescale - 1 := by
  simp [tickEvent]

/-- The prescaler counts modulo `PRESCALE`: the width of its register never cuts a legal value. -/
theorem timerOut_preCnt (hp : s.timer.preCnt < s.cfg.prescale) :
    (timerOut s).preCnt = (s.timer.preCnt + 1) % s.cfg.prescale := by
  by_cases ht : s.timer.preCnt = s.cfg.prescale - 1
  · have hwrap : s.timer.preCnt + 1 = s.cfg.prescale := by omega
    simp [timerOut, tickEvent_iff.mpr ht, hwrap]
  · have hnext : s.timer.preCnt + 1 < s.cfg.prescale := by omega
    have hfits : s.timer.preCnt + 1 < 2 ^ s.cfg.preW := hnext.trans_le s.cfg.prescale_le_two_pow_preW
    simp [timerOut, tickEvent_iff, ht, Nat.mod_eq_of_lt hnext, Nat.mod_eq_of_lt hfits]

theorem timerOut_preCnt_lt (hp : s.timer.preCnt < s.cfg.prescale) : (timerOut s).preCnt < s.cfg.prescale := by
  rw [timerOut_preCnt hp]
  exact Nat.mod_lt _ (Nat.zero_lt_of_lt hp)

/-- `n` cycles without a reset advance the prescaler by `n` modulo `PRESCALE`. -/
theorem after_preCnt (n : Nat) (hv : s.cfg.valid = true) (hp : s.timer.preCnt < s.cfg.prescale)
    (hr : NoResetFor n s) :
    ∃ t, after n s = .next t ∧ t.cfg = s.cfg ∧ t.timer.preCnt = (s.timer.preCnt + n) % s.cfg.prescale := by
  induction n generalizing s with
  | zero => exact ⟨s, rfl, rfl, (Nat.mod_eq_of_lt hp).symm⟩
  | succ n ih =>
    obtain ⟨t, hrun, hcfg, hcnt⟩ := ih (s := cycleOut (nextInputs s) s) hv (timerOut_preCnt_lt hp) hr.tail
    refine ⟨t, (after_succ_of_noReset hv hr).trans hrun, hcfg, ?_⟩
    calc t.timer.preCnt = ((s.timer.preCnt + 1) % s.cfg.prescale + n) % s.cfg.prescale := by
          rw [hcnt, cycleOut_timer, timerOut_preCnt hp, cycleOut_cfg]
      _ = (s.timer.preCnt + (n + 1)) % s.cfg.prescale := by
          rw [Nat.mod_add_mod, Nat.add_assoc, Nat.add_comm 1 n]

/-- The cycles with a tick, counted from any legal `pre_cnt`. -/
theorem tickEvent_after_iff {n : Nat} {t : State} (hv : s.cfg.valid = true)
    (hp : s.timer.preCnt < s.cfg.prescale) (hr : NoResetFor n s) (ht : after n s = .next t) :
    tickEvent t = true ↔ (s.timer.preCnt + n) % s.cfg.prescale = s.cfg.prescale - 1 := by
  obtain ⟨u, hrun, hcfg, hcnt⟩ := after_preCnt n hv hp hr
  cases hrun.symm.trans ht
  rw [tickEvent_iff, hcnt, hcfg]

end Prescaler

/-- Settles O14: `pre_cnt + 1` reduces to 0 exactly after `PRESCALE - 1`. -/
theorem prescalerEachCycle : Obligations.PrescalerEachCycle := by
  intro s hv hp hr
  refine ⟨_, step_of_run s hv hr, ?_⟩
  rw [cycleOut_timer, timerOut_preCnt hp]
  split_ifs with ht
  · rw [ht, Nat.sub_add_cancel (Config.prescale_pos hv), Nat.mod_self]
  · exact Nat.mod_eq_of_lt (by omega)

/-- Settles O16, from the value of `pre_cnt` after `n` cycles. -/
theorem tickPeriod : Obligations.TickPeriod := by
  intro s n hv h0 hr
  have hp : s.timer.preCnt < s.cfg.prescale := h0 ▸ Config.prescale_pos hv
  obtain ⟨t, hrun, -, -⟩ := after_preCnt n hv hp hr
  refine ⟨t, hrun, ?_⟩
  rw [tickEvent_after_iff hv hp hr hrun, h0, Nat.zero_add]

/-! ## The tick counter and the delay channel in one cycle (40 R122, R124, R125) -/

section Timer
variable {s : State}

theorem dlyDone_iff :
    dlyDone s = true ↔ s.timer.dlyBusy = true ∧ s.timer.dlyTarget.toNat ≤ s.timer.tickCount.toNat := by
  simp [dlyDone]

/-- The counter and the delay channel after a cycle that starts a delay. -/
theorem timerOut_of_start (hd : dlyStart s = true) :
    (timerOut s).tickCount = 0 ∧ (timerOut s).dlyBusy = true ∧ (timerOut s).dlyTarget = dlyTicks s := by
  simp [timerOut, hd]

/-- The counter and the delay channel after any other cycle. -/
theorem timerOut_of_noStart (hd : dlyStart s = false) :
    (timerOut s).tickCount = (if tickEvent s then s.timer.tickCount + 1 else s.timer.tickCount) ∧
      (timerOut s).dlyBusy = (s.timer.dlyBusy && !dlyDone s) ∧ (timerOut s).dlyTarget = s.timer.dlyTarget := by
  simp [timerOut, hd]

end Timer

/-- Settles O15: the delay start is looked at before the tick. -/
theorem tickCounterEachCycle : Obligations.TickCounterEachCycle := by
  intro s hv hr
  refine ⟨_, step_of_run s hv hr, fun hd => (timerOut_of_start hd).1, fun hd ht => ?_, fun hd ht => ?_⟩
  · rw [cycleOut_timer, (timerOut_of_noStart hd).1, if_pos (tickEvent_iff.mpr ht)]
    exact BitVec.toNat_add _ _
  · rw [cycleOut_timer, (timerOut_of_noStart hd).1, if_neg (mt tickEvent_iff.mp ht)]

/-! ## The control states of a running delay (10 R43; 40 R124, R127) -/

/-- The part of the invariant that the delay channel rests on. -/
structure DelayInv (s : State) : Prop where
  config : s.cfg.valid = true
  noHost : s.script = []
  preCnt : s.timer.preCnt < s.cfg.prescale
  iState : s.ini.state.toNat ≤ 2
  handshake : Handshake s
  delay : DelayChannel s

theorem CoreInv.delayInv {s : State} (h : CoreInv s) : DelayInv s :=
  ⟨h.config, h.noHost, h.legal.preCnt, h.legal.iState, h.handshake, h.delay⟩

/-- The handshake speaks only of the state codes, and of the engine's only whether it is idle. -/
theorem Handshake.congr {s t : State} (h : Handshake s) (hseq : t.seq.state = s.seq.state)
    (hini : t.ini.state = s.ini.state) (hgate : t.gate.state = s.gate.state)
    (heng : t.eng.state = EngCode.dIdle ↔ s.eng.state = EngCode.dIdle) : Handshake t where
  gateRuns := by rw [hseq, hgate]; exact h.gateRuns
  initFirst := by rw [hseq, hini]; exact h.initFirst
  initAsksIdle := by rw [hini, heng]; exact h.initAsksIdle
  initWaits := by rw [hini, ne_eq, heng]; exact h.initWaits
  gateWaits := by rw [hini, hgate, ne_eq, heng]; exact h.gateWaits

theorem Handshake.gateIdle_of_seq {s : State} (h : Handshake s) (hseq : s.seq.state ≠ SeqCode.sRefresh) :
    s.gate.state = GateCode.gIdle :=
  not_not.mp (mt h.gateRuns.mp hseq)

/-- The sequencer asks for its delay only while the engine is idle. -/
theorem Handshake.seqDlyStart_eq_false {s : State} (h : Handshake s) (heng : s.eng.state ≠ EngCode.dIdle) :
    seqDlyStart s = false := by
  by_contra hd
  obtain ⟨-, hDone⟩ := seqDlyStart_iff.mp (eq_true_of_ne_false hd)
  exact heng (h.engIdle_of_gateRuns (by simp [hDone]) (by simp [hDone]))

namespace DelayInv
variable {s : State} (h : DelayInv s)
include h

theorem ini_cases : s.ini.state = InitCode.iIssue ∨ s.ini.state = InitCode.iWait ∨ s.ini.state = InitCode.iReady := by
  have hcodes : ∀ c : BitVec 2, c.toNat ≤ 2 → c = InitCode.iIssue ∨ c = InitCode.iWait ∨ c = InitCode.iReady := by
    decide
  exact hcodes _ h.iState

/-- With no host word waiting, the engine runs its own arm. -/
theorem engineOut_eq : engineOut s = engOut s := by
  have hnone : hostWord s = none := by simp [hostWord, h.noHost]
  simp [engineOut, hnone]

/-- While a transaction is in flight, its requester waits: the init runner before `I_READY`, the gate after it. -/
theorem requester_of_engBusy (heng : s.eng.state ≠ EngCode.dIdle) :
    (s.ini.state = InitCode.iWait ∧ s.seq.state = SeqCode.sInit ∧ s.gate.state = GateCode.gIdle) ∨
      (s.ini.state = InitCode.iReady ∧ s.seq.state = SeqCode.sRefresh ∧ s.gate.state = GateCode.gWait) := by
  obtain hini | hini | hini := h.ini_cases
  · exact absurd (h.handshake.initAsksIdle hini) heng
  · have hseq : s.seq.state = SeqCode.sInit := h.handshake.initFirst (by simp [hini])
    exact .inl ⟨hini, hseq, h.handshake.gateIdle_of_seq (by simp [hseq])⟩
  · have hgate : s.gate.state = GateCode.gWait := (h.handshake.gateWaits hini).mp heng
    exact .inr ⟨hini, h.handshake.gateRuns.mp (by simp [hgate]), hgate⟩

/-- While the sequencer paces, nobody else moves. -/
theorem idle_of_pace (hseq : s.seq.state = SeqCode.sPace) :
    s.ini.state = InitCode.iReady ∧ s.gate.state = GateCode.gIdle ∧ s.eng.state = EngCode.dIdle := by
  have hini : s.ini.state = InitCode.iReady := by
    by_contra hn
    exact absurd (hseq.symm.trans (h.handshake.initFirst hn)) (by decide)
  have hgate : s.gate.state = GateCode.gIdle := h.handshake.gateIdle_of_seq (by simp [hseq])
  have heng : s.eng.state = EngCode.dIdle := by
    by_contra he
    exact absurd (hgate.symm.trans ((h.handshake.gateWaits hini).mp he)) (by decide)
  exact ⟨hini, hgate, heng⟩

/-- Until the transaction in flight reports its end, sequencer, init runner and gate stay as they are. -/
theorem requester_waits (heng : s.eng.state ≠ EngCode.dIdle) (hend : s.eng.state ≠ EngCode.dDone) :
    seqOut s = s.seq ∧ iniOut s = s.ini ∧ gateOut s = s.gate := by
  have htx : txDone s = false := by simpa [txDone] using hend
  obtain ⟨hini, hseq, hgate⟩ | ⟨hini, hseq, hgate⟩ := h.requester_of_engBusy heng
  · refine ⟨?_, ?_, ?_⟩
    · simp [seqOut_init hseq, deReady, hini, ← hseq]
    · simp [iniOut_wait hini, htx]
    · simp [gateOut_idle hgate, gateStart, hseq]
  · refine ⟨?_, iniOut_ready hini, ?_⟩
    · simp [seqOut_refresh hseq, gateDone, hgate, ← hseq]
    · simp [gateOut_wait hgate, htx]

/-- In a running core no delay starts while one runs that is not done (40 R124). -/
theorem dlyStart_eq_false (hbusy : s.timer.dlyBusy = true) (hrun : dlyDone s = false) : dlyStart s = false := by
  obtain heng | heng | hseq := h.delay.busy.mp hbusy
  · simp [dlyStart, h.handshake.seqDlyStart_eq_false, dbmDlyStart, heng, hrun]
  · simp [dlyStart, h.handshake.seqDlyStart_eq_false, dbmDlyStart, heng]
  · obtain ⟨-, -, heng⟩ := h.idle_of_pace hseq
    simp [dlyStart, seqDlyStart, dbmDlyStart, heng, hseq]

/-- While a delay runs that is not done, no state machine moves. -/
theorem machines_wait (hbusy : s.timer.dlyBusy = true) (hrun : dlyDone s = false) :
    seqOut s = s.seq ∧ iniOut s = s.ini ∧ gateOut s = s.gate ∧ engineOut s = s.eng := by
  rw [h.engineOut_eq]
  obtain heng | heng | hseq := h.delay.busy.mp hbusy
  · obtain ⟨hseq, hini, hgate⟩ := h.requester_waits (by simp [heng]) (by simp [heng])
    exact ⟨hseq, hini, hgate, by simp [engOut_ehi heng, hrun]⟩
  · obtain ⟨hseq, hini, hgate⟩ := h.requester_waits (by simp [heng]) (by simp [heng])
    exact ⟨hseq, hini, hgate, by simp [engOut_elo heng, hrun]⟩
  · obtain ⟨hini, hgate, heng⟩ := h.idle_of_pace hseq
    refine ⟨by simp [seqOut_pace hseq, hrun, ← hseq], iniOut_ready hini, ?_, ?_⟩
    · simp [gateOut_idle hgate, gateStart, hseq]
    · simp [engOut_idle heng, txStart, initTxStart, gateTxStart, hini, hgate]

/-- When the init runner waits, only the handshake and the channel of the next cycle remain to be shown. -/
theorem of_cycleOut {i : Inputs} (hini : iniOut s = s.ini) (hh : Handshake (cycleOut i s))
    (hd : DelayChannel (cycleOut i s)) : DelayInv (cycleOut i s) where
  config := h.config
  noHost := by simp [cycleOut, h.noHost]
  preCnt := timerOut_preCnt_lt h.preCnt
  iState := by rw [cycleOut_ini, hini]; exact h.iState
  handshake := hh
  delay := hd

/-- While a delay runs that is not done, the channel stays busy with its target and the counter counts the ticks. -/
theorem timerOut_of_wait (hbusy : s.timer.dlyBusy = true) (hrun : dlyDone s = false) :
    (timerOut s).dlyBusy = true ∧ (timerOut s).dlyTarget = s.timer.dlyTarget ∧
      (timerOut s).tickCount.toNat = s.timer.tickCount.toNat + if tickEvent s then 1 else 0 := by
  obtain ⟨hcount, hbusy', htarget⟩ := timerOut_of_noStart (h.dlyStart_eq_false hbusy hrun)
  have hlt : s.timer.tickCount.toNat < s.timer.dlyTarget.toNat := by simpa [dlyDone, hbusy] using hrun
  refine ⟨by simp [hbusy', hbusy, hrun], htarget, ?_⟩
  rw [hcount]
  split_ifs
  · exact BitVec.toNat_add_of_lt (Nat.lt_of_le_of_lt hlt s.timer.dlyTarget.isLt)
  · rfl

/-- A cycle of a running delay keeps what the channel rests on: no state code changes, and the counter, below its
target until now, does not pass it. -/
theorem of_wait (i : Inputs) (hbusy : s.timer.dlyBusy = true) (hrun : dlyDone s = false) :
    DelayInv (cycleOut i s) := by
  obtain ⟨hseq, hini, hgate, heng⟩ := h.machines_wait hbusy hrun
  obtain ⟨hbusy', htarget, hcount⟩ := h.timerOut_of_wait hbusy hrun
  have hlt : s.timer.tickCount.toNat < s.timer.dlyTarget.toNat := by simpa [dlyDone, hbusy] using hrun
  refine h.of_cycleOut hini (h.handshake.congr ?_ ?_ ?_ ?_) ⟨?_, fun _ => ?_, ?_, ?_⟩
  · rw [cycleOut_seq, hseq]
  · rw [cycleOut_ini, hini]
  · rw [cycleOut_gate, hgate]
  · rw [cycleOut_eng, heng]
  · simpa [hseq, heng, hbusy', hbusy] using h.delay.busy
  · rw [cycleOut_timer, htarget, hcount]
    split_ifs <;> omega
  · simpa [heng, htarget] using h.delay.hold
  · simpa [hseq, htarget] using h.delay.pace

/-- The engine's delay starts: the transaction goes on, and its requester waits. -/
theorem of_dbmDlyStart (i : Inputs) (hd : dbmDlyStart s = true) : DelayInv (cycleOut i s) := by
  have hbusy : s.eng.state ≠ EngCode.dIdle ∧ s.eng.state ≠ EngCode.dDone := by
    obtain heng | ⟨heng, -⟩ := dbmDlyStart_iff.mp hd <;> simp [heng]
  have hnext : (engineOut s).state = EngCode.dEhi ∨ (engineOut s).state = EngCode.dElo := by
    rw [h.engineOut_eq]
    obtain heng | ⟨heng, hdone⟩ := dbmDlyStart_iff.mp hd
    · simp [engOut_eon heng]
    · simp [engOut_ehi heng, hdone]
  have hpace : s.seq.state ≠ SeqCode.sPace := fun hseq => hbusy.1 (h.idle_of_pace hseq).2.2
  obtain ⟨hseq, hini, hgate⟩ := h.requester_waits hbusy.1 hbusy.2
  obtain ⟨hcount, hbusy', htarget⟩ := timerOut_of_start (s := s) (by simp [dlyStart, hd])
  refine h.of_cycleOut hini (h.handshake.congr ?_ ?_ ?_ ?_) ⟨?_, fun _ => ?_, fun _ => ?_, fun hp => ?_⟩
  · rw [cycleOut_seq, hseq]
  · rw [cycleOut_ini, hini]
  · rw [cycleOut_gate, hgate]
  · refine iff_of_false ?_ hbusy.1
    obtain heng | heng := hnext <;> simp [heng]
  · simp only [cycleOut_timer, hbusy', cycleOut_eng, ← or_assoc, hnext, true_or]
  · simp [hcount]
  · simp [htarget, dlyTicks, h.handshake.seqDlyStart_eq_false hbusy.1]
  · rw [cycleOut_seq, hseq] at hp
    exact absurd hp hpace

/-- The sequencer's delay starts: the gate has reported and goes idle, the engine is idle. -/
theorem of_seqDlyStart (i : Inputs) (hd : seqDlyStart s = true) : DelayInv (cycleOut i s) := by
  obtain ⟨hseq, hgate⟩ := seqDlyStart_iff.mp hd
  have hini : s.ini.state = InitCode.iReady := h.handshake.ready_of_gateRuns (by simp [hgate])
  have heng : s.eng.state = EngCode.dIdle := h.handshake.engIdle_of_gateRuns (by simp [hgate]) (by simp [hgate])
  have hseq' : (seqOut s).state = SeqCode.sPace := by simp [seqOut_refresh hseq, gateDone, hgate]
  have hgate' : (gateOut s).state = GateCode.gIdle := by simp [gateOut_done hgate]
  have heng' : (engineOut s).state = EngCode.dIdle := by
    simp [h.engineOut_eq, engOut_idle heng, txStart, initTxStart, gateTxStart, hini, hgate, heng]
  obtain ⟨hcount, hbusy', htarget⟩ := timerOut_of_start (s := s) (by simp [dlyStart, hd])
  refine h.of_cycleOut (iniOut_ready hini) ?_ ?_
  · constructor <;> simp [hseq', hgate', heng', iniOut_ready hini, hini]
  · constructor <;> simp [hseq', heng', hbusy', hcount, htarget, dlyTicks, hd]

theorem of_dlyStart (i : Inputs) (hd : dlyStart s = true) : DelayInv (cycleOut i s) := by
  obtain hseq | hdbm := (Bool.or_eq_true _ _).mp hd
  · exact h.of_seqDlyStart i hseq
  · exact h.of_dbmDlyStart i hdbm

end DelayInv

/-- Settles O17: the registers in every cycle, and a running core never starts a delay over a running one. -/
theorem delayChannelEachCycle : Obligations.DelayChannelEachCycle := by
  refine ⟨fun s hv hr => ⟨_, step_of_run s hv hr, fun hd => (timerOut_of_start hd).2, fun hd => ?_⟩,
    fun s h hd hbusy => ?_⟩
  · obtain ⟨-, hbusy, htarget⟩ := timerOut_of_noStart hd
    refine ⟨htarget, ?_⟩
    rw [cycleOut_timer, hbusy, Bool.and_eq_true]
    exact and_congr_right fun hb => by simp [dlyDone, hb]
  · by_contra hlt
    have hrun : dlyDone s = false := by simpa [dlyDone, hbusy] using hlt
    exact Bool.false_ne_true ((h.delayInv.dlyStart_eq_false hbusy hrun).symm.trans hd)

/-! ## The length of a delay (40 R127, R128) -/

/-- The tick counter `n` cycles on, as long as no delay starts: one for each time the prescaler wraps. -/
def countAfter (s : State) (n : Nat) : Nat := s.timer.tickCount.toNat + (s.timer.preCnt + n) / s.cfg.prescale

section Length
variable {s : State}

theorem countAfter_zero (hp : s.timer.preCnt < s.cfg.prescale) : countAfter s 0 = s.timer.tickCount.toNat := by
  simp [countAfter, Nat.div_eq_of_lt hp]

/-- The cycle of a running delay is the first of the `n + 1` that `countAfter` counts. -/
theorem DelayInv.countAfter_cycleOut (h : DelayInv s) (i : Inputs) (hbusy : s.timer.dlyBusy = true)
    (hrun : dlyDone s = false) (n : Nat) : countAfter (cycleOut i s) n = countAfter s (n + 1) := by
  obtain ⟨-, -, hcount⟩ := h.timerOut_of_wait hbusy hrun
  have hp := h.preCnt
  simp only [countAfter, cycleOut_timer, cycleOut_cfg, hcount, timerOut_preCnt hp]
  by_cases ht : s.timer.preCnt = s.cfg.prescale - 1
  · have hwrap : s.timer.preCnt + 1 = s.cfg.prescale := by omega
    have hnext : s.timer.preCnt + (n + 1) = s.cfg.prescale + n := by omega
    rw [if_pos (tickEvent_iff.mpr ht), hwrap, Nat.mod_self, Nat.zero_add, hnext,
      Nat.add_div_left _ (Nat.zero_lt_of_lt hp)]
    omega
  · rw [if_neg (mt tickEvent_iff.mp ht), Nat.mod_eq_of_lt (by omega), Nat.add_zero, Nat.add_assoc _ 1, Nat.add_comm 1 n]

/-- A delay is done as soon as the counter has counted up to its target. -/
theorem DelayInv.dlyDone_after (n : Nat) (h : DelayInv s) (hbusy : s.timer.dlyBusy = true) (hr : NoResetFor n s)
    (hrun : ∀ m < n, countAfter s m < s.timer.dlyTarget.toNat) :
    ∃ t, after n s = .next t ∧ (dlyDone t = true ↔ s.timer.dlyTarget.toNat ≤ countAfter s n) := by
  induction n generalizing s with
  | zero => exact ⟨s, rfl, by simp [dlyDone_iff, hbusy, countAfter_zero h.preCnt]⟩
  | succ n ih =>
    have hnow : dlyDone s = false := by
      simpa [dlyDone, hbusy, countAfter_zero h.preCnt] using hrun 0 (Nat.succ_pos n)
    obtain ⟨hbusy', htarget, -⟩ := h.timerOut_of_wait hbusy hnow
    have hcount := h.countAfter_cycleOut (nextInputs s) hbusy hnow
    obtain ⟨t, ht, hdone⟩ := ih (h.of_wait (nextInputs s) hbusy hnow) hbusy' hr.tail fun m hm => by
      rw [hcount, cycleOut_timer, htarget]
      exact hrun (m + 1) (Nat.succ_lt_succ hm)
    refine ⟨t, (after_succ_of_noReset h.config hr).trans ht, ?_⟩
    rw [hdone, hcount, cycleOut_timer, htarget]

/-- From a cleared counter a delay of `N` ticks is done when the prescaler has counted `N * PRESCALE` cycles from its
value now, and not before. -/
theorem DelayInv.dlyDone_after_clear (h : DelayInv s) (hbusy : s.timer.dlyBusy = true) (hclear : s.timer.tickCount = 0)
    {n : Nat} (hr : NoResetFor n s) (hn : n ≤ s.timer.dlyTarget.toNat * s.cfg.prescale - s.timer.preCnt) :
    ∃ t, after n s = .next t ∧
      (dlyDone t = true ↔ s.timer.dlyTarget.toNat * s.cfg.prescale - s.timer.preCnt ≤ n) := by
  have hzero : s.timer.tickCount.toNat = 0 := congrArg BitVec.toNat hclear
  have hreached : ∀ m, s.timer.dlyTarget.toNat ≤ countAfter s m ↔
      s.timer.dlyTarget.toNat * s.cfg.prescale - s.timer.preCnt ≤ m := fun m => by
    rw [countAfter, hzero, Nat.zero_add,
      Nat.le_div_iff_mul_le (Config.prescale_pos h.config), Nat.sub_le_iff_le_add']
  obtain ⟨t, ht, hdone⟩ := h.dlyDone_after n hbusy hr fun m hm =>
    not_le.mp fun hle => absurd ((hreached m).mp hle) (by omega)
  exact ⟨t, ht, hdone.trans (hreached n)⟩

/-- The first tick comes when the prescaler has counted up from its value now. -/
theorem preCnt_add_of_firstTick {n : Nat} {t : State} (hv : s.cfg.valid = true)
    (hp : s.timer.preCnt < s.cfg.prescale) (hr : NoResetFor n s) (ht : after n s = .next t)
    (htick : tickEvent t = true) (hfirst : ∀ m u, m < n → after m s = .next u → tickEvent u = false) :
    s.timer.preCnt + n = s.cfg.prescale - 1 := by
  have hle : s.timer.preCnt + n ≤ s.cfg.prescale - 1 := by
    by_contra hgt
    have hm : s.cfg.prescale - 1 - s.timer.preCnt < n := by omega
    have hrm := hr.mono hm.le
    obtain ⟨u, hu, -, -⟩ := after_preCnt _ hv hp hrm
    have hearly : tickEvent u = true := by
      rw [tickEvent_after_iff hv hp hrm hu, Nat.mod_eq_of_lt] <;> omega
    exact Bool.false_ne_true ((hfirst _ u hm hu).symm.trans hearly)
  rw [tickEvent_after_iff hv hp hr ht, Nat.mod_eq_of_lt (by omega)] at htick
  exact htick

/-- The distance to the first later tick and the prescaler's value in the next cycle add up to `PRESCALE`. -/
theorem add_preCnt_of_firstLaterTick {k : Nat} {t : State} (hv : s.cfg.valid = true)
    (hp : s.timer.preCnt < s.cfg.prescale) (hk : 1 ≤ k) (hr : NoResetFor k s) (ht : after k s = .next t)
    (htick : tickEvent t = true) (hfirst : ∀ j u, 1 ≤ j → j < k → after j s = .next u → tickEvent u = false) :
    k + (timerOut s).preCnt = s.cfg.prescale := by
  obtain ⟨n, rfl⟩ := Nat.exists_eq_add_of_le' hk
  rw [after_succ_of_noReset hv hr] at ht
  have hsum : (timerOut s).preCnt + n = s.cfg.prescale - 1 :=
    preCnt_add_of_firstTick (s := cycleOut (nextInputs s) s) hv (timerOut_preCnt_lt hp) hr.tail ht htick
      fun m u hm hu => hfirst (m + 1) u (Nat.le_add_left 1 m) (Nat.succ_lt_succ hm)
        ((after_succ_of_noReset hv (hr.mono (by omega))).trans hu)
  have hpos := Config.prescale_pos hv
  omega

/-- A delay started in this cycle, `j` cycles later. -/
theorem DelayInv.dlyDone_after_start (h : DelayInv s) (hstart : dlyStart s = true) {j : Nat} (hj : 1 ≤ j)
    (hjd : j ≤ (dlyTicks s).toNat * s.cfg.prescale - (timerOut s).preCnt + 1) (hr : NoResetFor j s) :
    ∃ t, after j s = .next t ∧
      (dlyDone t = true ↔ (dlyTicks s).toNat * s.cfg.prescale - (timerOut s).preCnt + 1 ≤ j) := by
  obtain ⟨n, rfl⟩ := Nat.exists_eq_add_of_le' hj
  obtain ⟨hclear, hbusy, htarget⟩ := timerOut_of_start hstart
  obtain ⟨t, ht, hdone⟩ := (h.of_dlyStart (nextInputs s) hstart).dlyDone_after_clear hbusy hclear hr.tail
    (by rw [cycleOut_timer, htarget, cycleOut_cfg]; omega)
  refine ⟨t, (after_succ_of_noReset h.config hr).trans ht, ?_⟩
  rw [hdone, cycleOut_timer, htarget, cycleOut_cfg, Nat.add_le_add_iff_right]

end Length

/-- The cycles of a delay of `N` ticks, from the first tick at `k` and from the prescaler's value `q` in its first
cycle. -/
theorem delayCycles_eq {N P k q : Nat} (hkq : k + q = P) :
    (if N = 0 then 1 else k + (N - 1) * P + 1) = N * P - q + 1 := by
  cases N with
  | zero => simp
  | succ M =>
    rw [if_neg (Nat.succ_ne_zero M), Nat.succ_sub_one, Nat.succ_mul]
    omega

theorem delayCycles_bounds {N P q : Nat} (hq : q < P) (hN : 1 ≤ N) :
    (N - 1) * P + 2 ≤ N * P - q + 1 ∧ N * P - q + 1 ≤ N * P + 1 := by
  obtain ⟨M, rfl⟩ := Nat.exists_eq_add_of_le' hN
  rw [Nat.add_sub_cancel, Nat.succ_mul]
  omega

/-- Settles O18: from the cycle after the start on, the delay is done when the prescaler has wrapped `N` times, and the
first wrap is `k` cycles after the start. -/
theorem delayLength : Obligations.DelayLength := by
  intro s k h hstart hk ⟨t, ht, htick⟩ hfirst P N d hr
  have hkq : k + (timerOut s).preCnt = P := add_preCnt_of_firstLaterTick h.config h.legal.preCnt hk
    (hr.mono (le_max_left k d)) ht htick hfirst
  have hq : (timerOut s).preCnt < P := timerOut_preCnt_lt h.legal.preCnt
  have hd : d = N * P - (timerOut s).preCnt + 1 := delayCycles_eq hkq
  have hdone : ∀ j, 1 ≤ j → j ≤ d → ∃ u, after j s = .next u ∧ (dlyDone u = true ↔ d ≤ j) := fun j hj hjd =>
    hd ▸ h.delayInv.dlyDone_after_start hstart hj (hd ▸ hjd) (hr.mono (hjd.trans (le_max_right k d)))
  refine ⟨by omega, fun hP => ?_, fun hN => hd ▸ delayCycles_bounds hq hN, fun j hj hjd => ?_, ?_⟩
  · rw [hd, hP]
    omega
  · obtain ⟨u, hu, hiff⟩ := hdone j hj hjd.le
    exact ⟨u, hu, eq_false_of_ne_true (mt hiff.mp (not_le.mpr hjd))⟩
  · obtain ⟨u, hu, hiff⟩ := hdone d (by omega) le_rfl
    exact ⟨u, hu, hiff.mpr le_rfl⟩

end Sys2Proof.Machine
end

section
/-! PROOFS. The two edge latches: one latch in a cycle, said once for both, the lockout window and the latency of a
press (spec/41_edge_latch_sync.md). -/

namespace Sys2Proof.Machine

/-! ## One latch in a cycle (41 R140 to R146) -/

/-- A latch after a cycle without reset, at the input level `btnN`; `toggled` is the other value of its flag. -/
def EdgeLatch.afterCycle {α : Type} (toggled : α → α) (debounce : Nat) (btnN : Bool) (l : EdgeLatch α) : EdgeLatch α :=
  { l.sample debounce btnN with flag := if l.accept then toggled l.flag else l.flag }

namespace EdgeLatch
variable {α : Type} {l : EdgeLatch α}

section AfterCycle
variable (toggled : α → α) (n : Nat) (b : Bool) (l : EdgeLatch α)

@[simp] theorem afterCycle_sync0 : (l.afterCycle toggled n b).sync0 = b := rfl
@[simp] theorem afterCycle_sync1 : (l.afterCycle toggled n b).sync1 = l.sync0 := rfl
@[simp] theorem afterCycle_prev : (l.afterCycle toggled n b).prev = l.sync1 := rfl
@[simp] theorem afterCycle_lock : (l.afterCycle toggled n b).lock = l.nextLock n := rfl
@[simp] theorem afterCycle_flag :
    (l.afterCycle toggled n b).flag = if l.accept then toggled l.flag else l.flag := rfl

end AfterCycle

theorem fall_iff : l.fall = true ↔ l.prev = true ∧ l.sync1 = false := by
  simp [fall]

theorem accept_eq_fall (h : l.lock = 0) : l.accept = l.fall := by
  simp [accept, h]

theorem accept_eq_false_of_lock (h : l.lock ≠ 0) : l.accept = false := by
  simp [accept, h]

theorem nextLock_of_accept (n : Nat) (h : l.accept = true) : l.nextLock n = n := by
  simp [nextLock, h]

theorem nextLock_of_not_accept (n : Nat) (h : l.accept = false) : l.nextLock n = l.lock - 1 := by
  simp only [nextLock, h, Bool.false_eq_true, if_false]
  split_ifs <;> omega

@[simp] theorem fall_reset (flag : α) : (EdgeLatch.reset flag).fall = false := rfl

/-- The cycle after a fall has none: a fall needs the previous level 1 (41 R144). -/
theorem fall_afterCycle (toggled : α → α) (n : Nat) (b : Bool) (h : l.fall = true) :
    (l.afterCycle toggled n b).fall = false := by
  obtain ⟨-, hlow⟩ := fall_iff.mp h
  simp [fall, hlow]

end EdgeLatch

/-- `latch` is an edge_latch_sync with the input `btn`: what every step writes in it. -/
structure IsLatch {α : Type} (latch : State → EdgeLatch α) (btn : Inputs → Bool) (toggled : α → α) : Prop where
  cycle : ∀ i s, latch (cycleOut i s) = (latch s).afterCycle toggled s.cfg.debounceCycles (btn i)
  reset : ∀ s, ∃ flag, latch (resetCycle s) = .reset flag

theorem isLatch_dir : IsLatch (·.dir) (·.dirBtnN) toggleDirection := ⟨fun _ _ => rfl, fun _ => ⟨.clockwise, rfl⟩⟩

theorem isLatch_mode : IsLatch (·.mode) (·.modeBtnN) toggleMode := ⟨fun _ _ => rfl, fun _ => ⟨.full, rfl⟩⟩

theorem toggleDirection_eq :
    toggleDirection = fun d => if d = .clockwise then .counterClockwise else .clockwise := by
  funext d; cases d <;> rfl

theorem toggleMode_eq : toggleMode = fun m => if m = .full then .half else .full := by
  funext m; cases m <;> rfl

namespace IsLatch
variable {α : Type} {latch : State → EdgeLatch α} {btn : Inputs → Bool} {toggled : α → α} {s t : State}
variable (h : IsLatch latch btn toggled)
include h

/-! ## The lockout (41 R143, R144) -/

/-- As long as no edge falls after its end, the lockout counts down to 0 and stays there: inside it nothing is
accepted, so nothing starts it again. -/
theorem lock_after (n : Nat) (hv : s.cfg.valid = true) (hr : NoResetFor n s)
    (hquiet : ∀ m t, (latch s).lock ≤ m → m < n → after m s = .next t → (latch t).fall = false) :
    ∃ t, after n s = .next t ∧ (latch t).lock = (latch s).lock - n := by
  induction n generalizing s with
  | zero => exact ⟨s, rfl, rfl⟩
  | succ n ih =>
    have hnone : (latch s).accept = false := by
      by_cases hlock : (latch s).lock = 0
      · rw [EdgeLatch.accept_eq_fall hlock]
        exact hquiet 0 s hlock.le n.succ_pos rfl
      · exact EdgeLatch.accept_eq_false_of_lock hlock
    have hnext : (latch (cycleOut (nextInputs s) s)).lock = (latch s).lock - 1 := by
      rw [h.cycle, EdgeLatch.afterCycle_lock, EdgeLatch.nextLock_of_not_accept _ hnone]
    obtain ⟨t, ht, hlock⟩ := ih (s := cycleOut (nextInputs s) s) hv hr.tail fun m u hm hmn hu =>
      hquiet (m + 1) u (by omega) (by omega) ((after_succ_of_noReset hv (hr.mono (by omega))).trans hu)
    exact ⟨t, (after_succ_of_noReset hv hr).trans ht, by omega⟩

/-- After an accepted edge the lockout register holds `DEBOUNCE_CYCLES` in the next cycle and counts down from there,
as long as no edge falls after its end. -/
theorem lock_after_accept {n : Nat} (hv : s.cfg.valid = true) (ha : (latch s).accept = true)
    (hr : NoResetFor (n + 1) s)
    (hquiet : ∀ m t, s.cfg.debounceCycles < m → m < n + 1 → after m s = .next t → (latch t).fall = false) :
    ∃ t, after (n + 1) s = .next t ∧ (latch t).lock = s.cfg.debounceCycles - n := by
  have hstart : (latch (cycleOut (nextInputs s) s)).lock = s.cfg.debounceCycles := by
    rw [h.cycle, EdgeLatch.afterCycle_lock, EdgeLatch.nextLock_of_accept _ ha]
  obtain ⟨t, ht, hlock⟩ := h.lock_after (s := cycleOut (nextInputs s) s) n hv hr.tail fun m u hm hmn hu =>
    hquiet (m + 1) u (by omega) (by omega) ((after_succ_of_noReset hv (hr.mono (by omega))).trans hu)
  exact ⟨t, (after_succ_of_noReset hv hr).trans ht, hstart ▸ hlock⟩

/-- Two falls are never in consecutive cycles, a reset between them or not. -/
theorem fall_after_fall (hf : (latch s).fall = true) (ht : step s = .next t) : (latch t).fall = false := by
  obtain ⟨-, ⟨-, rfl⟩ | ⟨-, rfl⟩⟩ := step_eq_next ht
  · obtain ⟨flag, hreset⟩ := h.reset s
    rw [hreset, EdgeLatch.fall_reset]
  · rw [h.cycle]
    exact EdgeLatch.fall_afterCycle toggled _ _ hf

theorem lockoutRule : LockoutRule latch := by
  refine ⟨fun s hv hr => ⟨_, step_of_run s hv hr, ?_⟩, fun s n hv ha hr hn => ?_, fun s t => h.fall_after_fall⟩
  · rw [h.cycle]
    rfl
  obtain ⟨k, rfl⟩ := Nat.exists_eq_add_of_le' hn
  refine ⟨fun hin => ?_, fun hout hquiet => ?_⟩
  · obtain ⟨t, ht, hlock⟩ := h.lock_after_accept hv ha hr fun m _ hm hmk => by omega
    exact ⟨t, ht, EdgeLatch.accept_eq_false_of_lock (by omega)⟩
  · obtain ⟨t, ht, hlock⟩ := h.lock_after_accept hv ha hr hquiet
    exact ⟨t, ht, EdgeLatch.accept_eq_fall (by omega)⟩

/-! ## The latency of a press (41 R147) -/

/-- A press is a fall two cycles after its low level is first sampled. -/
theorem fall_of_press {i j : Inputs} (hhigh : (latch s).sync0 = true) (hlow : btn i = false) :
    (latch (cycleOut j (cycleOut i s))).fall = true := by
  rw [EdgeLatch.fall_iff, h.cycle, h.cycle]
  exact ⟨hhigh, hlow⟩

/-- A fall outside the lockout toggles the flag. -/
theorem flag_of_fall (i : Inputs) (hf : (latch s).fall = true) (hlock : (latch s).lock = 0) :
    (latch (cycleOut i s)).flag = toggled (latch s).flag := by
  have ha : (latch s).accept = true := (EdgeLatch.accept_eq_fall hlock).trans hf
  rw [h.cycle, EdgeLatch.afterCycle_flag, if_pos ha]

theorem latencyRule : LatencyRule latch btn toggled := by
  intro s hv hr hhigh hlow
  have htwo : ∀ n, NoResetFor (n + 2) s → after (n + 2) s = after n (cycleOut _ (cycleOut (nextInputs s) s)) :=
    fun n hn => (after_succ_of_noReset hv hn).trans (after_succ_of_noReset hv hn.tail)
  exact ⟨_, _, htwo 0 (hr.mono (by omega)), (htwo 1 hr).trans (after_succ_of_noReset hv hr.tail.tail),
    h.flag_of_fall _ (h.fall_of_press hhigh hlow)⟩

end IsLatch

/-- Settles O21, for both latches: an accepted edge loads the lockout register, which counts down to 0 and is loaded
again only by a fall after its end. -/
theorem lockoutWindow : Obligations.LockoutWindow :=
  ⟨isLatch_dir.lockoutRule, isLatch_mode.lockoutRule⟩

/-- Settles O22, for both latches: the low level passes the synchroniser in two cycles and is a fall there. -/
theorem pressLatency : Obligations.PressLatency :=
  ⟨toggleDirection_eq ▸ isLatch_dir.latencyRule, toggleMode_eq ▸ isLatch_mode.latencyRule⟩

end Sys2Proof.Machine
end

section
/-! PROOFS. The control part of the invariant of a running core, kept by every cycle without a reset (spec/10_state.md
R38, R43, R44). -/

namespace Sys2Proof.Machine

/-- What the state codes and the delay channel of a running core satisfy. `DelayInv` alone is not kept by every cycle:
from an unused engine code the engine goes idle while its requester still waits (43 R207). -/
structure ControlInv (s : State) : Prop extends DelayInv s where
  dState : s.eng.state.toNat ≤ 5

/-- Only `S_STEP` and `S_REFRESH` itself lead to `S_REFRESH` (42 R161). -/
theorem seqOut_notRefresh {s : State} (hstep : s.seq.state ≠ SeqCode.sStep)
    (hrefresh : s.seq.state ≠ SeqCode.sRefresh) : (seqOut s).state ≠ SeqCode.sRefresh := by
  unfold seqOut
  simp only [if_neg hstep, if_neg hrefresh]
  split_ifs <;> simp [*]

/-- Only `S_REFRESH` and `S_PACE` itself lead to `S_PACE` (42 R161). -/
theorem seqOut_notPace {s : State} (hrefresh : s.seq.state ≠ SeqCode.sRefresh)
    (hpace : s.seq.state ≠ SeqCode.sPace) : (seqOut s).state ≠ SeqCode.sPace := by
  unfold seqOut
  simp only [if_neg hrefresh, if_neg hpace]
  split_ifs <;> simp [*]

theorem CoreInv.controlInv {s : State} (h : CoreInv s) : ControlInv s :=
  ⟨h.delayInv, h.legal.dState⟩

namespace ControlInv
variable {s : State} (h : ControlInv s)
include h

theorem eng_cases : s.eng.state = EngCode.dIdle ∨ s.eng.state = EngCode.dSetup ∨ s.eng.state = EngCode.dEon ∨
    s.eng.state = EngCode.dEhi ∨ s.eng.state = EngCode.dElo ∨ s.eng.state = EngCode.dDone := by
  have hcodes : ∀ c : BitVec 3, c.toNat ≤ 5 → c = EngCode.dIdle ∨ c = EngCode.dSetup ∨ c = EngCode.dEon ∨
      c = EngCode.dEhi ∨ c = EngCode.dElo ∨ c = EngCode.dDone := by
    decide
  exact hcodes _ h.dState

theorem engOut_dState : (engOut s).state.toNat ≤ 5 := by
  obtain heng | heng | heng | heng | heng | heng := h.eng_cases
  · rw [engOut_idle heng]; split_ifs <;> simp [heng]
  · simp [engOut_setup heng]
  · simp [engOut_eon heng]
  · rw [engOut_ehi heng]; split_ifs <;> simp [heng]
  · rw [engOut_elo heng]; split_ifs <;> simp [heng]
  · simp [engOut_done heng]

/-- A transaction in flight stays in flight until it reports its end. -/
theorem engOut_busy (hbusy : s.eng.state ≠ EngCode.dIdle) (hend : s.eng.state ≠ EngCode.dDone) :
    (engOut s).state ≠ EngCode.dIdle := by
  obtain heng | heng | heng | heng | heng | heng := h.eng_cases
  · exact absurd heng hbusy
  · simp [engOut_setup heng]
  · simp [engOut_eon heng]
  · rw [engOut_ehi heng]; split_ifs <;> simp [heng]
  · rw [engOut_elo heng]; split_ifs <;> simp [heng]
  · exact absurd heng hend

/-- An engine that does not start a delay, and whose hold is over, holds no strobe level in the next cycle. -/
theorem engOut_notHolding (hstart : dbmDlyStart s = false) (hover : s.timer.dlyBusy = true → dlyDone s = true) :
    (engOut s).state ≠ EngCode.dEhi ∧ (engOut s).state ≠ EngCode.dElo := by
  obtain heng | heng | heng | heng | heng | heng := h.eng_cases
  · rw [engOut_idle heng]; split_ifs <;> simp [heng]
  · simp [engOut_setup heng]
  · simp [dbmDlyStart, heng] at hstart
  · have hdone : dlyDone s = true := hover (h.delay.busy.mpr (.inl heng))
    simp [dbmDlyStart, heng, hdone] at hstart
  · have hdone : dlyDone s = true := hover (h.delay.busy.mpr (.inr (.inl heng)))
    rw [engOut_elo heng, if_pos hdone]; split_ifs <;> simp
  · simp [engOut_done heng]

/-- A sequencer that does not start its delay, and whose delay is over, does not pace in the next cycle. -/
theorem seqOut_notPacing (hstart : seqDlyStart s = false) (hover : s.timer.dlyBusy = true → dlyDone s = true) :
    (seqOut s).state ≠ SeqCode.sPace := by
  by_cases hrefresh : s.seq.state = SeqCode.sRefresh
  · have hgate : gateDone s = false := by simpa [seqDlyStart, hrefresh] using hstart
    simp [seqOut_refresh hrefresh, hgate]
  by_cases hpace : s.seq.state = SeqCode.sPace
  · have hdone : dlyDone s = true := hover (h.delay.busy.mpr (.inr (.inr hpace)))
    simp [seqOut_pace hpace, hdone]
  exact seqOut_notPace hrefresh hpace

/-- A request is taken: the requester waits from the next cycle on. -/
theorem engOut_of_txStart (htx : txStart s = true) : engOut s = s.eng.accept (txWord s) := by
  rw [engOut_idle (h.handshake.engIdle_of_txStart htx), if_pos htx]

/-- When the transaction in flight ends, its requester goes on: the runner to the next command or to `I_READY`, the
gate to the next word or to its report. -/
theorem handshake_of_txDone (i : Inputs) (heng : s.eng.state = EngCode.dDone) : Handshake (cycleOut i s) := by
  have htx : txDone s = true := by simp [txDone, heng]
  have heng' : (engineOut s).state = EngCode.dIdle := by simp [h.engineOut_eq, engOut_done heng]
  obtain ⟨hini, hseq, hgate⟩ | ⟨hini, hseq, hgate⟩ := h.requester_of_engBusy (by simp [heng])
  · have hseq' : (seqOut s).state = SeqCode.sInit := by simp [seqOut_init hseq, deReady, hini]
    have hgate' : (gateOut s).state = GateCode.gIdle := by simp [gateOut_idle hgate, gateStart, hseq, hgate]
    have hini' : (iniOut s).state ≠ InitCode.iWait := by
      rw [iniOut_wait hini, if_pos htx]; split_ifs <;> simp
    constructor <;> simp [hseq', hgate', heng', hini']
  · have hseq' : (seqOut s).state = SeqCode.sRefresh := by simp [seqOut_refresh hseq, gateDone, hgate]
    have hgate' : (gateOut s).state = GateCode.gIssue ∨ (gateOut s).state = GateCode.gDone := by
      rw [gateOut_wait hgate, if_pos htx]; split_ifs <;> simp
    constructor <;> obtain hgate' | hgate' := hgate' <;> simp [hseq', hgate', heng', iniOut_ready hini, hini]

/-- When a request is taken, the engine leaves `D_IDLE` and the requester begins to wait. -/
theorem handshake_of_txStart (i : Inputs) (htx : txStart s = true) : Handshake (cycleOut i s) := by
  have heng' : (engineOut s).state = EngCode.dSetup := by
    rw [h.engineOut_eq, h.engOut_of_txStart htx, Engine.accept_state]
  obtain hini | hgate := txStart_iff.mp htx
  · have hseq : s.seq.state = SeqCode.sInit := h.handshake.initFirst (by simp [hini])
    have hgate : s.gate.state = GateCode.gIdle := h.handshake.gateIdle_of_seq (by simp [hseq])
    have hseq' : (seqOut s).state = SeqCode.sInit := by simp [seqOut_init hseq, deReady, hini]
    have hgate' : (gateOut s).state = GateCode.gIdle := by simp [gateOut_idle hgate, gateStart, hseq, hgate]
    constructor <;> simp [hseq', hgate', heng', iniOut_issue hini]
  · have hini : s.ini.state = InitCode.iReady := h.handshake.ready_of_gateRuns (by simp [hgate])
    have hseq : s.seq.state = SeqCode.sRefresh := h.handshake.gateRuns.mp (by simp [hgate])
    have hseq' : (seqOut s).state = SeqCode.sRefresh := by simp [seqOut_refresh hseq, gateDone, hgate]
    constructor <;> simp [hseq', gateOut_issue hgate, heng', iniOut_ready hini, hini]

/-- With engine and gate idle after the init script, the gate starts exactly when the sequencer begins to wait
for it. -/
theorem handshake_of_gateIdle (i : Inputs) (hini : s.ini.state = InitCode.iReady)
    (heng : s.eng.state = EngCode.dIdle) (hgate : s.gate.state = GateCode.gIdle) : Handshake (cycleOut i s) := by
  have heng' : (engineOut s).state = EngCode.dIdle := by
    simp [h.engineOut_eq, engOut_idle heng, txStart, initTxStart, gateTxStart, hini, hgate, heng]
  have hgate' : (gateOut s).state ≠ GateCode.gWait ∧
      ((gateOut s).state ≠ GateCode.gIdle ↔ (seqOut s).state = SeqCode.sRefresh) := by
    by_cases hseq : s.seq.state = SeqCode.sStep
    · rw [gateOut_idle hgate, if_pos (by simp [gateStart, hseq]), seqOut_step hseq]
      split_ifs <;> simp
    · have hrefresh : s.seq.state ≠ SeqCode.sRefresh := fun hr => h.handshake.gateRuns.mpr hr hgate
      simp [gateOut_idle hgate, gateStart, hseq, hgate, seqOut_notRefresh hseq hrefresh]
  obtain ⟨hwait, hruns⟩ := hgate'
  constructor <;> simp [heng', hwait, hruns, iniOut_ready hini, hini]

/-- The handshake is kept by every cycle without a reset. -/
theorem handshake_cycleOut (i : Inputs) : Handshake (cycleOut i s) := by
  by_cases htx : txStart s = true
  · exact h.handshake_of_txStart i htx
  obtain ⟨hini, hissue⟩ := not_or.mp (mt txStart_iff.mpr htx)
  by_cases heng : s.eng.state = EngCode.dIdle
  · have hready : s.ini.state = InitCode.iReady := by
      obtain hi | hi | hi := h.ini_cases
      · exact absurd hi hini
      · exact absurd heng (h.handshake.initWaits hi)
      · exact hi
    have hwait : s.gate.state ≠ GateCode.gWait := fun hg => (h.handshake.gateWaits hready).mpr hg heng
    by_cases hgate : s.gate.state = GateCode.gIdle
    · exact h.handshake_of_gateIdle i hready heng hgate
    have hdone : s.gate.state = GateCode.gDone := by
      generalize s.gate.state = g at *
      revert g; decide
    exact (h.of_seqDlyStart i (seqDlyStart_iff.mpr ⟨h.handshake.gateRuns.mp hgate, hdone⟩)).handshake
  by_cases hend : s.eng.state = EngCode.dDone
  · exact h.handshake_of_txDone i hend
  obtain ⟨hseq, hini, hgate⟩ := h.requester_waits heng hend
  refine h.handshake.congr ?_ ?_ ?_ ?_
  · rw [cycleOut_seq, hseq]
  · rw [cycleOut_ini, hini]
  · rw [cycleOut_gate, hgate]
  · exact iff_of_false (by simpa [h.engineOut_eq] using h.engOut_busy heng hend) heng

theorem iniOut_iState : (iniOut s).state.toNat ≤ 2 := by
  obtain hini | hini | hini := h.ini_cases
  · simp [iniOut_issue hini]
  · rw [iniOut_wait hini]; split_ifs <;> simp [hini]
  · simp [iniOut_ready hini, hini]

/-- The delay channel is kept by every cycle without a reset: a delay starts, runs on, or none runs afterwards. -/
theorem delay_cycleOut (i : Inputs) : DelayChannel (cycleOut i s) := by
  by_cases hstart : dlyStart s = true
  · exact (h.of_dlyStart i hstart).delay
  by_cases hover : s.timer.dlyBusy = true → dlyDone s = true
  · obtain ⟨hseq, hdbm⟩ : seqDlyStart s = false ∧ dbmDlyStart s = false := by simpa [dlyStart] using hstart
    obtain ⟨-, hbusy', -⟩ := timerOut_of_noStart (eq_false_of_ne_true hstart)
    have hfree : (timerOut s).dlyBusy = false := by
      rw [hbusy']; cases hbusy : s.timer.dlyBusy <;> simp [hover, hbusy]
    obtain ⟨hehi, helo⟩ := h.engOut_notHolding hdbm hover
    have hpace := h.seqOut_notPacing hseq hover
    rw [← h.engineOut_eq] at hehi helo
    constructor <;> simp [hfree, hehi, helo, hpace]
  · obtain ⟨hbusy, hrun⟩ := Classical.not_imp.mp hover
    exact (h.of_wait i hbusy (eq_false_of_ne_true hrun)).delay

/-- Every cycle without a reset keeps the control part of the invariant. -/
theorem after_cycle (i : Inputs) : ControlInv (cycleOut i s) where
  config := h.config
  noHost := by simp [cycleOut, h.noHost]
  preCnt := timerOut_preCnt_lt h.preCnt
  iState := h.iniOut_iState
  handshake := h.handshake_cycleOut i
  delay := h.delay_cycleOut i
  dState := by rw [cycleOut_eng, h.engineOut_eq]; exact h.engOut_dState

end ControlInv

end Sys2Proof.Machine
end

section
/-! PROOFS. Runs without a reset: what holds until a given cycle, with a delay and a transaction counted cycle by
cycle at `PRESCALE = 1` (spec/40_tick_timer.md R127, spec/43_display_bus_multiplexer.md R206). -/

namespace Sys2Proof.Machine

/-! ## Runs without a reset, and what holds until a given cycle of them -/

/-- The next state of a cycle with `rst = 0`. -/
def nextCycle (s : State) : State := cycleOut (nextInputs s) s

@[simp] theorem nextCycle_cfg (s : State) : (nextCycle s).cfg = s.cfg := rfl
@[simp] theorem nextCycle_timer (s : State) : (nextCycle s).timer = timerOut s := rfl
@[simp] theorem nextCycle_seq (s : State) : (nextCycle s).seq = seqOut s := rfl
@[simp] theorem nextCycle_ini (s : State) : (nextCycle s).ini = iniOut s := rfl
@[simp] theorem nextCycle_gate (s : State) : (nextCycle s).gate = gateOut s := rfl

/-- Without a reset, `n` steps are `n` such cycles. -/
theorem after_eq_iterate {n : Nat} {s : State} (hv : s.cfg.valid = true) (hr : NoResetFor n s) :
    after n s = .next (nextCycle^[n] s) := by
  induction n generalizing s with
  | zero => rfl
  | succ n ih => exact (after_succ_of_noReset hv hr).trans (ih (s := nextCycle s) hv hr.tail)

/-- `Q` holds in the `n` cycles from `s` on, and `P` in the cycle after them. -/
def Until (Q : State → Prop) (n : Nat) (P : State → Prop) (s : State) : Prop :=
  (∀ j < n, Q (nextCycle^[j] s)) ∧ P (nextCycle^[n] s)

namespace Until
variable {Q P R : State → Prop} {m n : Nat} {s : State}

theorem zero (hp : P s) : Until Q 0 P s :=
  ⟨fun _ hj => absurd hj (Nat.not_lt_zero _), hp⟩

theorem trans {k : Nat} (h : Until Q m P s) (hnext : ∀ t, P t → Until Q n R t) (hk : k = m + n) : Until Q k R s := by
  obtain ⟨hq, hp⟩ := h
  obtain ⟨hq', hr⟩ := hnext _ hp
  refine ⟨fun j hj => ?_, by rwa [hk, Nat.add_comm, Function.iterate_add_apply]⟩
  obtain hjm | hmj := Nat.lt_or_ge j m
  · exact hq j hjm
  · obtain ⟨i, rfl⟩ := Nat.exists_eq_add_of_le' hmj
    rw [Function.iterate_add_apply]
    exact hq' i (by omega)

theorem one (hq : Q s) (hp : P (nextCycle s)) : Until Q 1 P s :=
  ⟨fun j hj => by rw [Nat.lt_one_iff.mp hj]; exact hq, hp⟩

/-- One cycle, then the others. -/
theorem head (hq : Q s) (h : Until Q n P (nextCycle s)) : Until Q (n + 1) P s :=
  (one (P := (· = nextCycle s)) hq rfl).trans (fun _ ht => ht ▸ h) (Nat.add_comm n 1)

theorem mono (h : Until Q n P s) (hpr : ∀ t, P t → R t) : Until Q n R s :=
  ⟨h.1, hpr _ h.2⟩

end Until

/-- The cycle is no `S_SAMPLE`. -/
def NotSampling (s : State) : Prop := s.seq.state ≠ SeqCode.sSample

/-! ## A delay at `PRESCALE = 1` (40 R127) -/

/-- Parameters and state machines of `t` as in `s`. -/
structure SameMachines (s t : State) : Prop where
  cfg : t.cfg = s.cfg
  seq : t.seq = s.seq
  ini : t.ini = s.ini
  gate : t.gate = s.gate
  eng : t.eng = s.eng

theorem SameMachines.trans {s t u : State} (h : SameMachines s t) (h' : SameMachines t u) : SameMachines s u :=
  ⟨h'.cfg.trans h.cfg, h'.seq.trans h.seq, h'.ini.trans h.ini, h'.gate.trans h.gate, h'.eng.trans h.eng⟩

namespace ControlInv
variable {s : State} (h : ControlInv s)
include h

theorem next : ControlInv (nextCycle s) := h.after_cycle _

theorem nextCycle_eng : (nextCycle s).eng = engOut s := h.engineOut_eq

theorem notSampling_of_engBusy (heng : s.eng.state ≠ EngCode.dIdle) : NotSampling s := by
  obtain ⟨-, hseq, -⟩ | ⟨-, hseq, -⟩ := h.requester_of_engBusy heng <;> simp [NotSampling, hseq]

theorem notSampling_of_gateRuns (hgate : s.gate.state ≠ GateCode.gIdle) : NotSampling s := by
  simp [NotSampling, h.handshake.gateRuns.mp hgate]

theorem notSampling_of_busy (hbusy : s.timer.dlyBusy = true) : NotSampling s := by
  obtain heng | heng | hseq := h.delay.busy.mp hbusy
  · exact h.notSampling_of_engBusy (by simp [heng])
  · exact h.notSampling_of_engBusy (by simp [heng])
  · simp [NotSampling, hseq]

theorem notSampling_of_dlyStart (hstart : dlyStart s = true) : NotSampling s := by
  obtain hd | hd := (Bool.or_eq_true _ _).mp hstart
  · simp [NotSampling, (seqDlyStart_iff.mp hd).1]
  · refine h.notSampling_of_engBusy ?_
    obtain heng | ⟨heng, -⟩ := dbmDlyStart_iff.mp hd <;> simp [heng]

/-- A delay that still has `n` ticks to count is done `n` cycles later, and nothing moved meanwhile. -/
theorem until_dlyDone {n : Nat} (hp : s.cfg.prescale = 1) (hbusy : s.timer.dlyBusy = true)
    (hn : s.timer.tickCount.toNat + n = s.timer.dlyTarget.toNat) :
    Until NotSampling n (fun t => ControlInv t ∧ dlyDone t = true ∧ SameMachines s t) s := by
  induction n generalizing s with
  | zero => exact .zero ⟨h, dlyDone_iff.mpr ⟨hbusy, hn.ge⟩, rfl, rfl, rfl, rfl, rfl⟩
  | succ n ih =>
    have hrun : dlyDone s = false := by simp [dlyDone, hbusy]; omega
    have htick : tickEvent s = true := by
      have := h.preCnt
      rw [tickEvent_iff]; omega
    obtain ⟨hseq, hini, hgate, heng⟩ := h.machines_wait hbusy hrun
    obtain ⟨hbusy', htarget, hcount⟩ := h.timerOut_of_wait hbusy hrun
    rw [if_pos htick] at hcount
    have hsame : SameMachines s (nextCycle s) := ⟨rfl, hseq, hini, hgate, heng⟩
    refine .head (h.notSampling_of_busy hbusy) ((ih h.next hp hbusy' ?_).mono ?_)
    · rw [nextCycle_timer, htarget, hcount]; omega
    · exact fun t ⟨hinv, hdone, hsame'⟩ => ⟨hinv, hdone, hsame.trans hsame'⟩

/-- A delay of `N` ticks started in this cycle is done `1 + N` cycles later; in between the machines stay as the cycle
of the start left them. -/
theorem until_dlyDone_of_dlyStart (hp : s.cfg.prescale = 1) (hstart : dlyStart s = true) :
    Until NotSampling ((dlyTicks s).toNat + 1)
      (fun t => ControlInv t ∧ dlyDone t = true ∧ SameMachines (nextCycle s) t) s := by
  obtain ⟨hclear, hbusy, htarget⟩ := timerOut_of_start hstart
  refine .head (h.notSampling_of_dlyStart hstart) (h.next.until_dlyDone hp hbusy ?_)
  rw [nextCycle_timer, hclear, htarget]; simp

end ControlInv

/-! ## A transaction at `PRESCALE = 1` (43 R206) -/

/-- The engine is in the state `code` of the phase `nib`, and parameters and requesters are still as in `r`. -/
structure Transmits (r : State) (code : BitVec 3) (nib : Bool) (t : State) : Prop where
  inv : ControlInv t
  cfg : t.cfg = r.cfg
  requesters : t.seq = r.seq ∧ t.ini = r.ini ∧ t.gate = r.gate
  state : t.eng.state = code
  nib : t.eng.nib = nib

namespace Transmits
variable {r t : State} {code code' : BitVec 3} {nib nib' : Bool}

theorem next (h : Transmits r code nib t) (hbusy : code ≠ EngCode.dIdle) (hend : code ≠ EngCode.dDone)
    (hcode : (engOut t).state = code') (hnib : (engOut t).nib = nib') : Transmits r code' nib' (nextCycle t) := by
  obtain ⟨hseq, hini, hgate⟩ := h.inv.requester_waits (h.state ▸ hbusy) (h.state ▸ hend)
  obtain ⟨hseq', hini', hgate'⟩ := h.requesters
  refine ⟨h.inv.next, h.cfg, ⟨hseq.trans hseq', hini.trans hini', hgate.trans hgate'⟩, ?_, ?_⟩
  · rw [h.inv.nextCycle_eng, hcode]
  · rw [h.inv.nextCycle_eng, hnib]

theorem of_sameMachines {u : State} (h : Transmits r code nib t) (hinv : ControlInv u) (hsame : SameMachines t u) :
    Transmits r code nib u := by
  obtain ⟨hcfg, hseq, hini, hgate, heng⟩ := hsame
  obtain ⟨hseq', hini', hgate'⟩ := h.requesters
  exact ⟨hinv, hcfg.trans h.cfg, ⟨hseq.trans hseq', hini.trans hini', hgate.trans hgate'⟩,
    heng ▸ h.state, heng ▸ h.nib⟩

/-- A strobe hold started in this cycle ends after `SETTLE_TICKS + 1` cycles, in the engine state it began in. -/
theorem until_holdDone (hp : r.cfg.prescale = 1) (h : Transmits r code nib t) (hstart : dbmDlyStart t = true)
    (hnext : Transmits r code' nib (nextCycle t)) :
    Until NotSampling (r.cfg.settleTicks.toNat + 1) (fun u => Transmits r code' nib u ∧ dlyDone u = true) t := by
  have hbusy : t.eng.state ≠ EngCode.dIdle := by
    obtain heng | ⟨heng, -⟩ := dbmDlyStart_iff.mp hstart <;> simp [heng]
  have hticks : dlyTicks t = r.cfg.settleTicks := by
    simp [dlyTicks, h.inv.handshake.seqDlyStart_eq_false hbusy, h.cfg]
  rw [← hticks]
  exact (h.inv.until_dlyDone_of_dlyStart (h.cfg ▸ hp) (by simp [dlyStart, hstart])).mono
    fun u ⟨hinv, hdone, hsame⟩ => ⟨hnext.of_sameMachines hinv hsame, hdone⟩

/-- One phase: setup, strobe on, the high hold and the low hold. -/
theorem until_lowHoldDone (hp : r.cfg.prescale = 1) (h : Transmits r EngCode.dSetup nib t) :
    Until NotSampling (2 * r.cfg.settleTicks.toNat + 3) (fun u => Transmits r EngCode.dElo nib u ∧ dlyDone u = true)
      t := by
  have hEon : Until NotSampling 1 (Transmits r EngCode.dEon nib) t :=
    .one (h.inv.notSampling_of_engBusy (by simp [h.state]))
      (h.next (by decide) (by decide) (by simp [engOut_setup h.state]) (by simp [engOut_setup h.state, h.nib]))
  have hEhi : ∀ u, Transmits r EngCode.dEon nib u → Until NotSampling (r.cfg.settleTicks.toNat + 1)
      (fun v => Transmits r EngCode.dEhi nib v ∧ dlyDone v = true) u := fun u hu =>
    hu.until_holdDone hp (by simp [dbmDlyStart, hu.state])
      (hu.next (by decide) (by decide) (by simp [engOut_eon hu.state]) (by simp [engOut_eon hu.state, hu.nib]))
  have hElo : ∀ u, Transmits r EngCode.dEhi nib u ∧ dlyDone u = true → Until NotSampling
      (r.cfg.settleTicks.toNat + 1) (fun v => Transmits r EngCode.dElo nib v ∧ dlyDone v = true) u :=
    fun u ⟨hu, hdone⟩ => hu.until_holdDone hp (by simp [dbmDlyStart, hu.state, hdone])
      (hu.next (by decide) (by decide) (by simp [engOut_ehi hu.state, hdone])
        (by simp [engOut_ehi hu.state, hdone, hu.nib]))
  exact (hEon.trans hEhi rfl).trans hElo (by omega)

/-- The first of two phases is followed by the second. -/
theorem until_secondPhase (hp : r.cfg.prescale = 1) (hw : r.cfg.busWidth.nph = 2)
    (h : Transmits r EngCode.dSetup false t) :
    Until NotSampling (2 * r.cfg.settleTicks.toNat + 4) (Transmits r EngCode.dSetup true) t := by
  refine (h.until_lowHoldDone hp).trans (n := 1) (fun u ⟨hu, hdone⟩ => ?_) rfl
  have hout : engOut u = { u.eng with nib := true, state := EngCode.dSetup } := by
    rw [engOut_elo hu.state, if_pos hdone, if_pos ⟨hu.cfg ▸ hw, hu.nib⟩]
  exact .one (hu.inv.notSampling_of_engBusy (by simp [hu.state])) (hu.next (by decide) (by decide)
    (by rw [hout]) (by rw [hout]))

/-- The last phase is followed by `D_DONE`. -/
theorem until_done (hp : r.cfg.prescale = 1) (hw : ¬(r.cfg.busWidth.nph = 2 ∧ nib = false))
    (h : Transmits r EngCode.dSetup nib t) :
    Until NotSampling (2 * r.cfg.settleTicks.toNat + 4) (Transmits r EngCode.dDone nib) t := by
  refine (h.until_lowHoldDone hp).trans (n := 1) (fun u ⟨hu, hdone⟩ => ?_) rfl
  have hout : engOut u = { u.eng with state := EngCode.dDone } := by
    rw [engOut_elo hu.state, if_pos hdone, if_neg (by rwa [hu.cfg, hu.nib])]
  exact .one (hu.inv.notSampling_of_engBusy (by simp [hu.state])) (hu.next (by decide) (by decide)
    (by rw [hout]) (by rw [hout, hu.nib]))

end Transmits

namespace ControlInv
variable {s : State} (h : ControlInv s)
include h

theorem notSampling_of_txStart (htx : txStart s = true) : NotSampling s := by
  obtain hini | hgate := txStart_iff.mp htx
  · simp [NotSampling, h.handshake.initFirst (by simp [hini])]
  · exact h.notSampling_of_gateRuns (by simp [hgate])

/-- A transaction requested in this cycle reports its end `T` cycles later; until then its requesters wait. -/
theorem until_txDone (hp : s.cfg.prescale = 1) (htx : txStart s = true) :
    Until NotSampling (transactionTime s.cfg) (fun t => ∃ nib, Transmits (nextCycle s) EngCode.dDone nib t) s := by
  have hout := h.engOut_of_txStart htx
  have hfirst : Transmits (nextCycle s) EngCode.dSetup false (nextCycle s) := by
    refine ⟨h.next, rfl, ⟨rfl, rfl, rfl⟩, ?_, ?_⟩ <;> rw [h.nextCycle_eng, hout] <;> rfl
  have hp' : (nextCycle s).cfg.prescale = 1 := hp
  refine .head (h.notSampling_of_txStart htx) ?_
  cases hw : s.cfg.busWidth with
  | four =>
    have hsecond := hfirst.until_secondPhase hp' (by simp [hw, BusWidth.nph])
    exact (hsecond.trans (fun t ht => ht.until_done hp' (by simp)) (by simp [BusWidth.nph]; omega)).mono
      fun t ht => ⟨true, ht⟩
  | eight =>
    rw [BusWidth.nph, Nat.one_mul]
    exact (hfirst.until_done hp' (by simp [hw, BusWidth.nph])).mono fun t ht => ⟨false, ht⟩

end ControlInv

end Sys2Proof.Machine
end

section
/-! PROOFS. The stepper sequencer: one motor step, the unused codes, and the length of an iteration
(spec/42_stepper_sequencer.md). -/

namespace Sys2Proof.Machine

/-! ## One motor step (42 R162, R164) -/

theorem exec_seqStep (s : State) : exec .seqStep s = .next { s with seq := { s.seq with
    motorPhase := stepEntry s, stepIdx := nextIdx s.seq.stepIdx s.seq.snapDir s.seq.snapMode
    state := SeqCode.sRefresh } } := rfl

/-- The Full table holds 12, 6, 3, 9 and is read at the index modulo 4. -/
theorem tableEntry_full (c : Config) (i : StepIndex) :
    some (tableEntry c .full i).toNat = [12, 6, 3, 9][i.toNat % 4]? := by
  show some (readFull (i.setWidth 2)).toNat = _
  revert i; decide

/-- The Half table is read at the index as it stands. -/
theorem tableEntry_half (c : Config) (i : StepIndex) : some (tableEntry c .half i) = c.halfTable.toList[i.toNat]? := by
  have hi : i.toNat < c.halfTable.toList.length := by simpa using i.isLt
  rw [List.getElem?_eq_getElem hi, Vector.getElem_toList]
  rfl

theorem nextIdx_clockwise (i : StepIndex) (mo : StepMode) :
    (nextIdx i .clockwise mo).toNat = (i.toNat + 1) % if mo = .full then 4 else 8 := by
  revert i; cases mo <;> decide

theorem nextIdx_counterClockwise (i : StepIndex) (mo : StepMode) :
    (nextIdx i .counterClockwise mo).toNat =
      if i.toNat = 0 then (if mo = .full then 4 else 8) - 1 else i.toNat - 1 := by
  revert i; cases mo <;> decide

theorem gateStart_iff {s : State} : gateStart s = true ↔ s.seq.state = SeqCode.sStep := by
  simp [gateStart]

/-- Settles O25: the entry and the next index are those of the tables, for each mode and direction. -/
theorem motorStepResult : Obligations.MotorStepResult := by
  intro s
  refine ⟨_, exec_seqStep s, ⟨rfl, rfl, rfl, fun hmode => ?_, fun hmode => ?_, fun hdir => ?_, fun hdir => ?_⟩,
    gateStart_iff.mpr⟩
  · simpa only [stepEntry, hmode] using tableEntry_full s.cfg s.seq.stepIdx
  · simpa only [stepEntry, hmode] using tableEntry_half s.cfg s.seq.stepIdx
  · simpa only [hdir] using nextIdx_clockwise s.seq.stepIdx s.seq.snapMode
  · simpa only [hdir] using nextIdx_counterClockwise s.seq.stepIdx s.seq.snapMode

/-! ## The unused codes (42 R168) -/

theorem exec_seqUnused (code : BitVec 3) (s : State) :
    exec (.seqUnused code) s = .next { s with seq := { s.seq with state := SeqCode.sInit } } := rfl

/-- Settles O26: both pulses of the sequencer belong to codes below 5, and a running core holds a legal code. -/
theorem sequencerUnusedCodes : Obligations.SequencerUnusedCodes := by
  refine ⟨fun code s hcode => ⟨exec_seqUnused code s, fun hstate => ⟨?_, ?_⟩⟩, fun s h => h.legal.seqState⟩
  · refine eq_false_of_ne_true fun hpulse => ?_
    rw [← hstate, gateStart_iff.mp hpulse] at hcode
    exact absurd hcode (by decide)
  · refine eq_false_of_ne_true fun hpulse => ?_
    rw [← hstate, (seqDlyStart_iff.mp hpulse).1] at hcode
    exact absurd hcode (by decide)

/-! ## The iteration (42 R170) -/

/-- A running core with the parameters `c` whose gate requests word `k` of the render script. -/
structure RequestsWord (c : Config) (k : Nat) (s : State) : Prop where
  inv : ControlInv s
  cfg : s.cfg = c
  state : s.gate.state = GateCode.gIssue
  rPtr : s.gate.rPtr.toNat = k

/-- A running core with the parameters `c` whose gate reports its end. -/
structure ReportsDone (c : Config) (s : State) : Prop where
  inv : ControlInv s
  cfg : s.cfg = c
  state : s.gate.state = GateCode.gDone

/-- The `S_SAMPLE` cycle that ends an iteration. -/
def Samples (s : State) : Prop := s.seq.state = SeqCode.sSample

section Iteration
variable {c : Config} {s : State} {k : Nat}

/-- From the request of a word, `T` cycles on, the gate still waits with that word's pointer and the engine reports. -/
theorem RequestsWord.until_txDone (hp : c.prescale = 1) (h : RequestsWord c k s) :
    Until NotSampling (transactionTime c) (fun t => ControlInv t ∧ t.cfg = c ∧ t.eng.state = EngCode.dDone ∧
      t.gate.state = GateCode.gWait ∧ t.gate.rPtr.toNat = k) s := by
  obtain ⟨hinv, rfl, hstate, hptr⟩ := h
  refine (hinv.until_txDone hp (txStart_iff.mpr (.inr hstate))).mono fun t ⟨nib, ht⟩ => ?_
  obtain ⟨-, -, hgate⟩ := ht.requesters
  rw [nextCycle_gate, gateOut_issue hstate] at hgate
  exact ⟨ht.inv, ht.cfg, ht.state, by rw [hgate], by rw [hgate, hptr]⟩

/-- A word before the last takes `T + 1` cycles to the request of the next. -/
theorem RequestsWord.until_next (hp : c.prescale = 1) (hk : k < renderLast) (h : RequestsWord c k s) :
    Until NotSampling (transactionTime c + 1) (RequestsWord c (k + 1)) s := by
  refine (h.until_txDone hp).trans (fun t ⟨hinv, hcfg, heng, hgate, hptr⟩ => ?_) rfl
  have hout : gateOut t = { t.gate with rPtr := t.gate.rPtr + 1, state := GateCode.gIssue } := by
    rw [gateOut_wait hgate, if_pos (by simp [txDone, heng]), if_neg (by omega)]
  refine .one (hinv.notSampling_of_engBusy (by simp [heng])) ⟨hinv.next, hcfg, ?_, ?_⟩
  · rw [nextCycle_gate, hout]
  · rw [nextCycle_gate, hout]
    have hlt : t.gate.rPtr.toNat + 1 < 2 ^ 5 := by simp only [renderLast] at hk; omega
    rw [← hptr]
    exact BitVec.toNat_add_of_lt hlt

/-- The last word takes `T + 1` cycles to the gate's report. -/
theorem RequestsWord.until_reportsDone (hp : c.prescale = 1) (h : RequestsWord c renderLast s) :
    Until NotSampling (transactionTime c + 1) (ReportsDone c) s := by
  refine (h.until_txDone hp).trans (fun t ⟨hinv, hcfg, heng, hgate, hptr⟩ => ?_) rfl
  refine .one (hinv.notSampling_of_engBusy (by simp [heng])) ⟨hinv.next, hcfg, ?_⟩
  rw [nextCycle_gate, gateOut_wait hgate, if_pos (by simp [txDone, heng]), if_pos hptr]

/-- With `m` words after the requested one, the gate reports `(m + 1) * (T + 1)` cycles later. -/
theorem RequestsWord.until_scriptDone (hp : c.prescale = 1) (m : Nat) (hm : k + m = renderLast)
    (h : RequestsWord c k s) :
    Until NotSampling ((m + 1) * (transactionTime c + 1)) (ReportsDone c) s := by
  induction m generalizing k s with
  | zero =>
    obtain rfl : k = renderLast := hm
    rw [Nat.zero_add, Nat.one_mul]
    exact h.until_reportsDone hp
  | succ m ih =>
    exact (h.until_next hp (by omega)).trans (fun t ht => ih (by omega) ht) (by rw [Nat.succ_mul, Nat.add_comm])

/-- From the gate's report, the pacing delay leads to `S_SAMPLE` after `PACE_TICKS + 2` cycles. -/
theorem ReportsDone.until_samples (hp : c.prescale = 1) (h : ReportsDone c s) :
    Until NotSampling (c.paceTicks.toNat + 2) Samples s := by
  obtain ⟨hinv, rfl, hstate⟩ := h
  have hseq : s.seq.state = SeqCode.sRefresh := hinv.handshake.gateRuns.mp (by simp [hstate])
  have hstart : seqDlyStart s = true := seqDlyStart_iff.mpr ⟨hseq, hstate⟩
  have hticks : dlyTicks s = s.cfg.paceTicks := if_pos hstart
  have hpace := hinv.until_dlyDone_of_dlyStart hp (by simp [dlyStart, hstart])
  rw [hticks] at hpace
  refine hpace.trans (n := 1) (fun t ⟨_, hdone, hsame⟩ => ?_) rfl
  have hpacing : t.seq.state = SeqCode.sPace := by
    simp [hsame.seq, seqOut_refresh hseq, gateDone, hstate]
  exact .one (by simp [NotSampling, hpacing]) (by simp [Samples, seqOut_pace hpacing, hdone])

/-- The flags of this cycle are the pair last rendered. -/
def FlagsRendered (s : State) : Prop :=
  s.gate.lastValid = true ∧ s.gate.lastDir = s.dir.flag ∧ s.gate.lastMode = s.mode.flag

/-- The cycle after `S_SAMPLE` is `S_STEP`, and the gate will find a change exactly if the sampled flags are not the
pair last rendered. -/
theorem ControlInv.nextCycle_of_sample (h : ControlInv s) (hseq : s.seq.state = SeqCode.sSample) :
    (nextCycle s).seq.state = SeqCode.sStep ∧ (gateChanged (nextCycle s) = false ↔ FlagsRendered s) := by
  have hgate : gateOut s = s.gate := by
    rw [gateOut_idle (h.handshake.gateIdle_of_seq (by simp [hseq])), if_neg (by simp [gateStart, hseq])]
  refine ⟨by simp [seqOut_sample hseq], ?_⟩
  simp [gateChanged, FlagsRendered, hgate, seqOut_sample hseq, and_assoc]

/-- A gate that finds no change reports in the cycle after `S_STEP`. -/
theorem ControlInv.until_reportsDone_of_notChanged (h : ControlInv s) (hseq : s.seq.state = SeqCode.sStep)
    (hchanged : gateChanged s = false) : Until NotSampling 1 (ReportsDone s.cfg) s := by
  refine .one (by simp [NotSampling, hseq]) ⟨h.next, rfl, ?_⟩
  simp [gateOut_idle (h.handshake.gateIdle_of_seq (by simp [hseq])), gateStart, hseq, hchanged]

/-- A gate that finds a change requests the 19 words of the render script, and then reports. -/
theorem ControlInv.until_reportsDone_of_changed (h : ControlInv s) (hp : s.cfg.prescale = 1)
    (hseq : s.seq.state = SeqCode.sStep) (hchanged : gateChanged s = true) :
    Until NotSampling (19 * (transactionTime s.cfg + 1) + 1) (ReportsDone s.cfg) s := by
  have hfirst : RequestsWord s.cfg 0 (nextCycle s) := by
    refine ⟨h.next, rfl, ?_, ?_⟩ <;>
      simp [gateOut_idle (h.handshake.gateIdle_of_seq (by simp [hseq])), gateStart, hseq, hchanged]
  exact .head (by simp [NotSampling, hseq]) (hfirst.until_scriptDone hp renderLast rfl)

end Iteration

/-- Settles O31: after `S_SAMPLE` and `S_STEP` come the gate's report, at once or after the 19 words of the render
script, the pacing delay, and the next `S_SAMPLE`. -/
theorem iterationLength : Obligations.IterationLength := by
  intro s h hp hsample same n hsame hdiff hr
  have hinv : ControlInv (nextCycle s) := h.controlInv.next
  obtain ⟨hstep, hchanged⟩ := h.controlInv.nextCycle_of_sample hsample
  obtain ⟨m, rfl, hquiet, hend⟩ : ∃ m, n = m + 1 ∧ Until NotSampling m Samples (nextCycle s) := by
    by_cases hflags : FlagsRendered s
    · have hreport := hinv.until_reportsDone_of_notChanged hstep (hchanged.mpr hflags)
      exact ⟨s.cfg.paceTicks.toNat + 3, hsame hflags,
        hreport.trans (fun t ht => ht.until_samples hp) (Nat.add_comm _ 1)⟩
    · have hreport := hinv.until_reportsDone_of_changed hp hstep (eq_true_of_ne_false (mt hchanged.mp hflags))
      rw [nextCycle_cfg] at hreport
      exact ⟨s.cfg.paceTicks.toNat + 3 + 19 * (transactionTime s.cfg + 1), (hdiff hflags).trans (by omega),
        hreport.trans (fun t ht => ht.until_samples hp) (by omega)⟩
  refine ⟨fun j hj hjn => ?_, _, after_eq_iterate h.config hr, hend⟩
  obtain ⟨i, rfl⟩ := Nat.exists_eq_add_of_le' hj
  exact ⟨_, after_eq_iterate h.config (hr.mono hjn.le), hquiet i (Nat.lt_of_succ_lt_succ hjn)⟩

end Sys2Proof.Machine
end

section
/-! PROOFS. The display bus multiplexer: the unused codes, and the init script word by word
(spec/43_display_bus_multiplexer.md). -/

namespace Sys2Proof

/-- The init pointer has room for the whole script (43 R192). -/
theorem initLen_le_four (c : Config) : initLen c ≤ 4 := by
  unfold initLen
  split <;> decide

theorem initLen_pos (c : Config) : 0 < initLen c := by
  unfold initLen
  split <;> decide

end Sys2Proof

namespace Sys2Proof.Machine

/-! ## The unused codes (43 R207) -/

theorem exec_initUnused (s : State) :
    exec .initUnused s = .next { s with ini := { s.ini with state := InitCode.iIssue } } := rfl

theorem exec_engUnused (code : BitVec 3) (s : State) :
    exec (.engUnused code) s = .next { s with eng := { s.eng with state := EngCode.dIdle } } := rfl

theorem deReady_iff {s : State} : deReady s = true ↔ s.ini.state = InitCode.iReady := by
  simp [deReady]

theorem txDone_iff {s : State} : txDone s = true ↔ s.eng.state = EngCode.dDone := by
  simp [txDone]

/-- Settles O34: the pulses of the init runner and the engine belong to codes they use, and a running core holds no
other. -/
theorem busUnusedCodes : Obligations.BusUnusedCodes := by
  refine ⟨fun s => ⟨exec_initUnused s, fun hstate => ?_⟩,
    fun code s hcode => ⟨exec_engUnused code s, fun hstate => ⟨?_, ?_⟩⟩,
    fun s h => ⟨h.legal.iState, h.legal.dState⟩⟩
  · simp [initTxStart, deReady, hstate]
  · refine eq_false_of_ne_true fun hpulse => ?_
    rw [← hstate, txDone_iff.mp hpulse] at hcode
    exact absurd hcode (by decide)
  · refine eq_false_of_ne_true fun hpulse => ?_
    rw [← hstate] at hcode
    obtain heng | ⟨heng, -⟩ := dbmDlyStart_iff.mp hpulse <;> exact absurd hcode (by simp [heng])

/-! ## One command of the init script (43 R193, R194) -/

/-- A running core with the parameters `c` whose init runner requests command word `k`. -/
structure IssuesCommand (c : Config) (k : Nat) (s : State) : Prop where
  inv : ControlInv s
  cfg : s.cfg = c
  state : s.ini.state = InitCode.iIssue
  ptr : s.ini.ptr.toNat = k

/-- A running core with the parameters `c` whose engine reports the end of command word `k`. -/
structure CommandDone (c : Config) (k : Nat) (s : State) : Prop where
  inv : ControlInv s
  cfg : s.cfg = c
  engine : s.eng.state = EngCode.dDone
  state : s.ini.state = InitCode.iWait
  ptr : s.ini.ptr.toNat = k

section InitScript
variable {c : Config} {k : Nat} {s : State}

theorem IssuesCommand.txWord_eq {b : Byte} (h : IssuesCommand c k s) (hb : (initBytes c)[k]? = some b) :
    txWord s = ⟨false, b⟩ := by
  have hbyte : initByteAt s.cfg s.ini.ptr = b := by simp [initByteAt, h.cfg, h.ptr, hb]
  simp [txWord, deReady, h.state, initWord, hbyte, cmdWord]

/-- `T` cycles after the request the runner still waits with that word's pointer, and the engine reports. -/
theorem IssuesCommand.commandDone (hp : c.prescale = 1) (h : IssuesCommand c k s) :
    CommandDone c k (nextCycle^[transactionTime c] s) := by
  obtain ⟨hinv, rfl, hstate, hptr⟩ := h
  obtain ⟨-, nib, ht⟩ := hinv.until_txDone hp (txStart_iff.mpr (.inl hstate))
  obtain ⟨-, hini, -⟩ := ht.requesters
  rw [nextCycle_ini, iniOut_issue hstate] at hini
  exact ⟨ht.inv, ht.cfg, ht.state, by rw [hini], by rw [hini, hptr]⟩

theorem CommandDone.issues_next (hk : k + 1 < initLen c) (h : CommandDone c k s) :
    IssuesCommand c (k + 1) (nextCycle s) := by
  obtain ⟨hinv, rfl, heng, hstate, rfl⟩ := h
  have hout : iniOut s = ⟨InitCode.iIssue, s.ini.ptr + 1⟩ := by
    rw [iniOut_wait hstate, if_pos (txDone_iff.mpr heng), if_neg (by omega)]
  refine ⟨hinv.next, rfl, by rw [nextCycle_ini, hout], ?_⟩
  have hlt : s.ini.ptr.toNat + 1 < 2 ^ 2 := hk.trans_le (initLen_le_four s.cfg)
  rw [nextCycle_ini, hout]
  exact BitVec.toNat_add_of_lt hlt

theorem CommandDone.ready_next (hk : k + 1 = initLen c) (h : CommandDone c k s) :
    (nextCycle s).ini.state = InitCode.iReady := by
  obtain ⟨-, rfl, heng, hstate, rfl⟩ := h
  rw [nextCycle_ini, iniOut_wait hstate, if_pos (txDone_iff.mpr heng), if_pos (by omega)]

/-! ## The whole init script (43 R195, R196) -/

/-- `I_READY` is kept. -/
theorem deReady_iterate_mono {m n : Nat} (hmn : m ≤ n) (h : deReady (nextCycle^[m] s) = true) :
    deReady (nextCycle^[n] s) = true := by
  induction n, hmn using Nat.le_induction with
  | base => exact h
  | succ n _ ih =>
    rw [Function.iterate_succ_apply', deReady_iff, nextCycle_ini, iniOut_ready (deReady_iff.mp ih)]
    exact deReady_iff.mp ih

/-- From the request of the first command, command `k` is requested `k * (T + 1)` cycles later. -/
theorem IssuesCommand.iterate (hp : c.prescale = 1) (h : IssuesCommand c 0 s) (hk : k < initLen c) :
    IssuesCommand c k (nextCycle^[k * (transactionTime c + 1)] s) := by
  induction k with
  | zero => simpa using h
  | succ k ih =>
    have hdone := (ih (Nat.lt_of_succ_lt hk)).commandDone hp
    rw [Nat.succ_mul, Nat.add_comm (k * _), Function.iterate_add_apply, Function.iterate_succ_apply']
    exact hdone.issues_next hk

/-- From the request of the first command, the core is ready exactly from cycle `INIT_LEN * (T + 1)` on. -/
theorem IssuesCommand.deReady_iterate_iff (hp : c.prescale = 1) (h : IssuesCommand c 0 s) (j : Nat) :
    deReady (nextCycle^[j] s) = true ↔ initLen c * (transactionTime c + 1) ≤ j := by
  obtain ⟨k, hk⟩ := Nat.exists_eq_add_of_le' (initLen_pos c)
  have hdone : CommandDone c k (nextCycle^[transactionTime c + k * (transactionTime c + 1)] s) := by
    rw [Function.iterate_add_apply]
    exact (h.iterate hp (by omega)).commandDone hp
  have hend : initLen c * (transactionTime c + 1) = transactionTime c + k * (transactionTime c + 1) + 1 := by
    rw [hk, Nat.succ_mul]; omega
  rw [hend]
  refine ⟨fun hready => ?_, fun hj => deReady_iterate_mono hj ?_⟩
  · by_contra hj
    have hearly := deReady_iff.mp (deReady_iterate_mono (Nat.lt_succ_iff.mp (not_le.mp hj)) hready)
    exact absurd (hdone.state.symm.trans hearly) (by decide)
  · rw [Function.iterate_succ_apply', deReady_iff]
    exact hdone.ready_next hk.symm

end InitScript

/-- The invariant of a running core holds after reset, whatever inputs follow (70 R310). -/
theorem coreInv_resetOf {c : Config} (hv : c.valid = true) (ins : List Inputs) :
    CoreInv { State.resetOf c with inputs := ins } where
  config := hv
  noHost := rfl
  legal := ⟨Config.prescale_pos hv, Nat.zero_le _, Nat.zero_le _, Nat.zero_le _, Nat.zero_le _, initLen_pos c,
    Nat.zero_le _, Nat.zero_le _⟩
  handshake := by
    constructor <;> simp [State.resetOf, Sequencer.reset, InitRunner.reset, Engine.reset, RefreshGate.reset]
  delay := by constructor <;> simp [State.resetOf, TickTimer.reset, Engine.reset, Sequencer.reset]
  lines := by constructor <;> simp [State.resetOf, Engine.reset]
  flight := by constructor <;> simp [State.resetOf, InitRunner.reset, RefreshGate.reset]
  receiver := by
    show none = Engine.heldNibble c.busWidth .reset
    cases c.busWidth <;> rfl
  memory := ⟨List.Pairwise.nil, by simp [State.resetOf, Display.initial]⟩

/-- After reset the init runner requests the first command (70 R311). -/
theorem issuesCommand_resetOf {c : Config} (hv : c.valid = true) (ins : List Inputs) :
    IssuesCommand c 0 { State.resetOf c with inputs := ins } :=
  ⟨(coreInv_resetOf hv ins).controlInv, rfl, rfl, rfl⟩

/-- Settles O39: a command takes `T` cycles to the engine's report and one more to the next request, and the core is
ready exactly from the end of the last command on. -/
theorem initDuration : Obligations.InitDuration := by
  intro c hv hp script T
  have hlen : script.length = initLen c := initBytes_length c
  refine ⟨fun s h hcfg hstate hr => ?_, ?_⟩
  · have hissues : IssuesCommand c s.ini.ptr.toNat s := ⟨h.controlInv, hcfg, hstate, rfl⟩
    have hk : s.ini.ptr.toNat < script.length := by rw [hlen, ← hcfg]; exact h.legal.iPtr
    have hb : script[s.ini.ptr.toNat]? = some script[s.ini.ptr.toNat] := List.getElem?_eq_getElem hk
    refine ⟨initTxStart_iff.mpr hstate, ⟨_, hb, hissues.txWord_eq hb⟩, _, after_eq_iterate h.config hr, ?_⟩
    rw [Function.iterate_succ_apply', hlen]
    split_ifs with hlast
    · exact (hissues.commandDone hp).ready_next hlast
    · have hnext := (hissues.commandDone hp).issues_next (by omega)
      exact ⟨hnext.state, hnext.ptr⟩
  · intro ins s hr
    have hfirst : IssuesCommand c 0 s := issuesCommand_resetOf hv ins
    have hready : ∀ j, deReady (nextCycle^[j] s) = true ↔ script.length * (T + 1) ≤ j :=
      hlen ▸ hfirst.deReady_iterate_iff hp
    refine ⟨fun k b hb => ?_, fun j hj => ?_, fun j hj hr => ?_⟩
    · have hk : k < script.length := (List.getElem?_eq_some_iff.mp hb).1
      have hissues := hfirst.iterate hp (hk.trans_eq hlen)
      exact ⟨_, after_eq_iterate hv (hr.mono (Nat.mul_le_mul_right _ hk.le)), initTxStart_iff.mpr hissues.state,
        hissues.ptr, hissues.txWord_eq hb⟩
    · exact ⟨_, after_eq_iterate hv (hr.mono hj.le), eq_false_of_ne_true (mt (hready j).mp (not_le.mpr hj))⟩
    · exact ⟨_, after_eq_iterate hv hr, (hready j).mpr hj⟩

end Sys2Proof.Machine
end

section
/-! PROOFS. The display refresh gate: change detection, the words of the render script, and a start with the pair last
rendered (spec/45_display_refresh_gate.md R251, R252, R259). -/

namespace Sys2Proof

/-! ## The render script (45 R252) -/

/-- The two `PUTS_AT` of the script, each resolved to its set-address word and its label: rows 0 and 1 have the bases
0x00 and 0x40. -/
theorem renderScript_eq (c : Config) (di : Direction) (mo : StepMode) :
    renderScript c di mo =
      cmdWord c.cmdClear :: setAddrWord c 0x00#7 :: putsWords (dirLabel di) ++
        setAddrWord c 0x40#7 :: putsWords (modeLabel mo) := rfl

theorem putsWords_dirLabel_tw9 (di : Direction) :
    (putsWords (dirLabel di)).map (fun w => w.tw9.toNat) =
      [0x144, 0x169, 0x172, 0x13A] ++
        if di = .clockwise then [0x143, 0x157, 0x120] else [0x143, 0x143, 0x157] := by
  cases di <;> decide

theorem putsWords_modeLabel_tw9 (mo : StepMode) :
    (putsWords (modeLabel mo)).map (fun w => w.tw9.toNat) =
      [0x14D, 0x16F, 0x164, 0x165, 0x13A] ++
        if mo = .full then [0x146, 0x175, 0x16C, 0x16C] else [0x148, 0x161, 0x16C, 0x166] := by
  cases mo <;> decide

/-- The three command words of the script at the default command values. -/
theorem reference_renderCommands_tw9 :
    (cmdWord Config.reference.cmdClear).tw9.toNat = 0x001 ∧
      (setAddrWord Config.reference 0x00#7).tw9.toNat = 0x080 ∧
      (setAddrWord Config.reference 0x40#7).tw9.toNat = 0x0C0 := by
  decide

/-- Settles O42: the clear and set-address words, and between and after them the labels, one depending on the direction
and one on the mode. -/
theorem renderScriptWords : Obligations.RenderScriptWords := by
  intro di mo
  obtain ⟨hclear, hrow0, hrow1⟩ := reference_renderCommands_tw9
  simp only [renderScript_eq, List.map_append, List.map_cons, putsWords_dirLabel_tw9, putsWords_modeLabel_tw9,
    hclear, hrow0, hrow1, List.cons_append, List.nil_append, List.append_assoc]

end Sys2Proof

namespace Sys2Proof.Machine

/-! ## Change detection (45 R251) -/

theorem gateChanged_iff {s : State} : gateChanged s = true ↔
    s.gate.lastValid = false ∨ s.gate.lastDir ≠ s.seq.snapDir ∨ s.gate.lastMode ≠ s.seq.snapMode := by
  simp [gateChanged, or_assoc]

/-- Settles O40: the three disjuncts of the signal, read as propositions. -/
theorem gateChangedRule : Obligations.GateChangedRule := fun _ => gateChanged_iff

/-! ## A start with the pair last rendered (45 R259) -/

/-- Pins that stay as they are show the observer no strobe (30 R102). -/
@[simp] theorem Display.observe_same (c : Config) (n : Nat) (e : Engine) (d : Display) : d.observe c n e e = d := by
  simp [Display.observe]

section Silent
variable {s : State}

theorem txStart_eq_false (hini : s.ini.state = InitCode.iReady) (hgate : s.gate.state ≠ GateCode.gIssue) :
    txStart s = false := by
  refine eq_false_of_ne_true fun htx => ?_
  obtain hissue | hissue := txStart_iff.mp htx
  · exact absurd (hini.symm.trans hissue) (by decide)
  · exact hgate hissue

/-- After the init script the engine is idle in every cycle in which the gate does not wait for it. -/
theorem Handshake.engIdle_of_ready (h : Handshake s) (hini : s.ini.state = InitCode.iReady)
    (hgate : s.gate.state ≠ GateCode.gWait) : s.eng.state = EngCode.dIdle :=
  not_not.mp (mt (h.gateWaits hini).mp hgate)

/-- When the sequencer starts the gate, the init script is over and the gate is idle. -/
theorem Handshake.ready_of_gateStart (h : Handshake s) (hstart : gateStart s = true) :
    s.ini.state = InitCode.iReady ∧ s.gate.state = GateCode.gIdle := by
  have hseq : s.seq.state = SeqCode.sStep := gateStart_iff.mp hstart
  refine ⟨?_, h.gateIdle_of_seq (by simp [hseq])⟩
  by_contra hini
  exact absurd (hseq.symm.trans (h.initFirst hini)) (by decide)

/-- A cycle after the init script in which the gate neither asks for a transaction nor waits for one: none is requested,
engine and observer stay as they are, and the init runner stays ready. -/
theorem ControlInv.nextCycle_of_noTransaction (h : ControlInv s) (hini : s.ini.state = InitCode.iReady)
    (hissue : s.gate.state ≠ GateCode.gIssue) (hwait : s.gate.state ≠ GateCode.gWait) :
    txStart s = false ∧ (nextCycle s).eng = s.eng ∧ (nextCycle s).display = s.display ∧
      (nextCycle s).ini.state = InitCode.iReady := by
  have htx : txStart s = false := txStart_eq_false hini hissue
  have heng : engineOut s = s.eng := by
    rw [h.engineOut_eq, engOut_idle (h.handshake.engIdle_of_ready hini hwait), if_neg (by simp [htx])]
  refine ⟨htx, heng, ?_, by rw [nextCycle_ini, iniOut_ready hini, hini]⟩
  show s.display.observe s.cfg s.cycle s.eng (engineOut s) = s.display
  rw [heng, Display.observe_same]

end Silent

/-- Settles O46: the gate goes from `G_IDLE` to `G_DONE` and back, and in neither cycle asks for a transaction or waits
for one. -/
theorem gateSilentOnMatch : Obligations.GateSilentOnMatch := by
  intro s h hr hstart hvalid hdir hmode
  have hinv : ControlInv s := h.controlInv
  obtain ⟨hini, hidle⟩ := hinv.handshake.ready_of_gateStart hstart
  have hmatch : ¬gateChanged s = true := by simp [gateChanged_iff, hvalid, hdir, hmode]
  have hgate : (nextCycle s).gate = { s.gate with state := GateCode.gDone } := by
    rw [nextCycle_gate, gateOut_idle hidle, if_pos hstart, if_neg hmatch]
  have hdone : (nextCycle s).gate.state = GateCode.gDone := by rw [hgate]
  have hgate' : (nextCycle (nextCycle s)).gate = { s.gate with state := GateCode.gIdle } := by
    rw [nextCycle_gate, gateOut_done hdone, hgate]
  have hidle' : (nextCycle (nextCycle s)).gate.state = GateCode.gIdle := by rw [hgate']
  obtain ⟨htx, heng, hdisplay, hini'⟩ :=
    hinv.nextCycle_of_noTransaction hini (by rw [hidle]; decide) (by rw [hidle]; decide)
  obtain ⟨htx', heng', hdisplay', hini''⟩ :=
    hinv.next.nextCycle_of_noTransaction hini' (by rw [hdone]; decide) (by rw [hdone]; decide)
  have htx'' : txStart (nextCycle (nextCycle s)) = false := txStart_eq_false hini'' (by rw [hidle']; decide)
  exact ⟨_, _, after_eq_iterate h.config (hr.mono one_le_two), after_eq_iterate h.config hr, hgate, hgate',
    htx, htx', htx'', heng, heng'.trans heng, congrArg Display.lastWord (hdisplay'.trans hdisplay)⟩

end Sys2Proof.Machine
end

section
/-! PROOFS. The numeric texts of the host: the decimal digits of an integer and the truncated fixed-point text
(spec/46_host_formatting.md R270, R271, R272). -/

namespace Sys2Proof

/-! ## The characters beside the digits -/

@[simp] theorem charCode_minus : charCode '-' = 0x2D#8 := rfl
@[simp] theorem charCode_point : charCode '.' = 0x2E#8 := rfl

/-! ## Decimal digits (46 R270, R271) -/

/-- The decimal digits of `n` as ASCII codes, most significant first; no digit for zero. -/
def decimalText (n : Nat) : Text := (Nat.digits 10 n).reverse.map fun d => BitVec.ofNat 8 (0x30 + d)

/-- The last digit of a positive number stands behind those of its tenth. -/
theorem decimalText_of_pos {n : Nat} (h : 0 < n) :
    decimalText n = decimalText (n / 10) ++ [BitVec.ofNat 8 (0x30 + n % 10)] := by
  simp [decimalText, Nat.digits_def' (by decide : 1 < 10) h]

/-- The loop of R270 ends by itself when its fuel is at least its number. -/
theorem digitsBefore_eq {fuel m : Nat} (h : m ≤ fuel) (acc : Text) :
    digitsBefore fuel m acc = decimalText m ++ acc := by
  induction fuel generalizing m acc with
  | zero =>
    obtain rfl : m = 0 := Nat.le_zero.mp h
    rfl
  | succ fuel ih =>
    obtain rfl | hm := Nat.eq_zero_or_pos m
    · rfl
    · have hfuel : m / 10 ≤ fuel := by omega
      rw [digitsBefore, if_neg hm.ne', ih hfuel, decimalText_of_pos hm, List.append_assoc, List.singleton_append]

theorem renderNat_of_pos {n : Nat} (h : 0 < n) : renderNat n = decimalText n := by
  rw [renderNat, if_neg h.ne', digitsBefore_eq le_rfl, List.append_nil]

@[simp] theorem renderInteger_natCast (n : Nat) : renderInteger n = renderNat n := by
  simp [renderInteger]

theorem renderInteger_neg {n : Nat} (h : 0 < n) : renderInteger (-(n : Int)) = charCode '-' :: renderNat n := by
  have hneg : -(n : Int) < 0 := by omega
  rw [renderInteger, if_pos hneg, Int.natAbs_neg, Int.natAbs_natCast]

/-- Settles O10: the loop puts the digits of a positive number before the empty text. -/
theorem renderIntegerIsDecimal : Obligations.RenderIntegerIsDecimal := by
  refine ⟨rfl, fun n hn => ?_, fun n hn => ?_, fun c v => rfl⟩
  · exact (renderInteger_natCast n).trans (renderNat_of_pos hn)
  · rw [renderInteger_neg hn, renderInteger_natCast, charCode_minus]

/-! ## The fixed-point text (46 R272) -/

section Magnitude
variable (v : Rat)

/-- The magnitude in lowest terms, a natural number over a natural number. -/
theorem abs_eq_natAbs_div_den : |v| = (v.num.natAbs : Rat) / v.den := by
  rw [Rat.abs_def, Rat.divInt_eq_div, Int.cast_natCast, Int.cast_natCast]

theorem floor_abs_eq_fixedInt : ⌊|v|⌋ = (fixedInt v : Int) := by
  rw [abs_eq_natAbs_div_den, Rat.floor_natCast_div_natCast, fixedInt, Int.natCast_div]

/-- What is left of the magnitude after its integer part: the remainder over the denominator. -/
theorem abs_sub_fixedInt : |v| - fixedInt v = ((v.num.natAbs % v.den : Nat) : Rat) / v.den := by
  have hden : (v.den : Rat) ≠ 0 := Nat.cast_ne_zero.mpr v.den_ne_zero
  have hnum : (v.num.natAbs : Rat) = v.den * fixedInt v + (v.num.natAbs % v.den : Nat) := by
    exact_mod_cast (Nat.div_add_mod v.num.natAbs v.den).symm
  rw [abs_eq_natAbs_div_den, hnum, add_div, mul_div_cancel_left₀ _ hden, add_sub_cancel_left]

theorem floor_hundredths_eq_fixedFrac : ⌊(|v| - fixedInt v) * 100⌋ = (fixedFrac v : Int) := by
  have hscale : (|v| - fixedInt v) * 100 = ((v.num.natAbs % v.den * 100 : Nat) : Rat) / v.den := by
    rw [abs_sub_fixedInt, div_mul_eq_mul_div, Nat.cast_mul, Nat.cast_ofNat]
  rw [hscale, Rat.floor_natCast_div_natCast, fixedFrac, Int.natCast_div]

/-- The remainder is below the denominator, so there are two fractional digits at most. -/
theorem fixedFrac_lt : fixedFrac v < 100 := by
  have hmod : v.num.natAbs % v.den < v.den := Nat.mod_lt _ v.den_pos
  exact Nat.div_lt_of_lt_mul (Nat.mul_lt_mul_of_pos_right hmod (by decide))

/-- The sign of a rational is that of its numerator. -/
theorem renderFixedPoint_eq : renderFixedPoint v =
    (if v < 0 ∧ (0 < fixedInt v ∨ 0 < fixedFrac v) then [0x2D#8] else []) ++ renderInteger (fixedInt v) ++
      [0x2E#8, BitVec.ofNat 8 (0x30 + fixedFrac v / 10), BitVec.ofNat 8 (0x30 + fixedFrac v % 10)] := by
  simp only [renderFixedPoint, Rat.num_neg, charCode_minus, charCode_point]

end Magnitude

/-- Settles O11: `fixedInt` and `fixedFrac` are the two floors of R272. -/
theorem renderFixedPointTruncates : Obligations.RenderFixedPointTruncates := fun v =>
  ⟨fixedInt v, fixedFrac v, (floor_abs_eq_fixedInt v).symm, (floor_hundredths_eq_fixedFrac v).symm,
    Nat.le_of_lt_succ (fixedFrac_lt v), renderFixedPoint_eq v, fun _ => rfl⟩

end Sys2Proof
end

section
/-! PROOFS. Reset (spec/70_reset_and_hazards.md R310). -/

namespace Sys2Proof
open Machine

/-- Settles O52: `step` asks for `rst` before any operation runs, and the reset cycle puts each owner of registers at its
reset value. -/
theorem resetHasPriority : Obligations.ResetHasPriority := fun s hv hr =>
  ⟨resetCycle s, step_of_reset s hv hr, resetCycle_timer s, resetCycle_dir s, resetCycle_mode s, resetCycle_seq s,
    resetCycle_ini s, resetCycle_eng s, resetCycle_gate s, rfl⟩

end Sys2Proof
end

section
/-! PROOFS. The encodings: state codes, event words and bus words, decoded and encoded back (spec/30_encoding.md R90 to
R98). -/

namespace Sys2Proof

/-! ## State codes (30 R93) -/

section Codes
variable (c : Config)

theorem encode_seqOp (code : BitVec 3) : encode c (seqOp code) = [⟨.seqState, code.setWidth 10⟩] := by
  unfold seqOp
  split_ifs <;> simp_all [encode, codeWord]

theorem encode_initOp (code : BitVec 2) : encode c (initOp code) = [⟨.initState, code.setWidth 10⟩] := by
  have hlast : code ≠ 0 → code ≠ 1 → code ≠ 2 → code = 3 := by revert code; decide
  unfold initOp
  split_ifs <;> simp_all [encode, codeWord]

theorem encode_engOp (code : BitVec 3) : encode c (engOp code) = [⟨.engState, code.setWidth 10⟩] := by
  unfold engOp
  split_ifs <;> simp_all [encode, codeWord]

theorem encode_gateOp (code : BitVec 2) : encode c (gateOp code) = [⟨.gateState, code.setWidth 10⟩] := by
  have hlast : code ≠ 0 → code ≠ 1 → code ≠ 2 → code = 3 := by revert code; decide
  unfold gateOp
  split_ifs <;> simp_all [encode, codeWord]

/-- A code put into a word of ten bits stays below the bound of its format, and is read back. -/
theorem code_fits {n : Nat} (hn : n ≤ 10) (code : BitVec n) :
    (code.setWidth 10).toNat < 2 ^ n ∧ (code.setWidth 10).setWidth n = code := by
  refine ⟨?_, ?_⟩
  · rw [BitVec.toNat_setWidth_of_le hn]
    exact code.isLt
  · rw [BitVec.setWidth_setWidth_of_le _ hn, BitVec.setWidth_eq]

/-- A word below the bound of its format is the code it is read as. -/
theorem setWidth_setWidth_of_lt {n : Nat} {w : BusWord} (hn : n ≤ 10) (h : w.toNat < 2 ^ n) :
    (w.setWidth n).setWidth 10 = w := by
  refine BitVec.eq_of_toNat_eq ?_
  rw [BitVec.toNat_setWidth_of_le hn, BitVec.toNat_setWidth, Nat.mod_eq_of_lt h]

theorem decode_seqState (code : BitVec 3) : decode c .seqState (code.setWidth 10) = .ok (seqOp code) := by
  obtain ⟨hlt, hcode⟩ := code_fits (by decide) code
  exact (if_pos hlt).trans (by rw [hcode])

theorem decode_initState (code : BitVec 2) : decode c .initState (code.setWidth 10) = .ok (initOp code) := by
  obtain ⟨hlt, hcode⟩ := code_fits (by decide) code
  exact (if_pos hlt).trans (by rw [hcode])

theorem decode_engState (code : BitVec 3) : decode c .engState (code.setWidth 10) = .ok (engOp code) := by
  obtain ⟨hlt, hcode⟩ := code_fits (by decide) code
  exact (if_pos hlt).trans (by rw [hcode])

theorem decode_gateState (code : BitVec 2) : decode c .gateState (code.setWidth 10) = .ok (gateOp code) := by
  obtain ⟨hlt, hcode⟩ := code_fits (by decide) code
  exact (if_pos hlt).trans (by rw [hcode])

end Codes

/-- The unused codes select themselves (30 R96). -/
theorem seqOp_unused {code : BitVec 3} (h : 5 ≤ code.toNat) : seqOp code = .seqUnused code := by
  unfold seqOp
  split_ifs <;> simp_all

theorem engOp_unused {code : BitVec 3} (h : 6 ≤ code.toNat) : engOp code = .engUnused code := by
  unfold engOp
  split_ifs <;> simp_all

/-! ## Event words (30 R97) -/

/-- An event vector with one operation has one bit set, and is that operation's word. -/
theorem encode_of_eventOps {c : Config} {ev : EventVector} {i : Instr} (h : eventOps ev = [i]) :
    encode c i = [⟨.events, ev.setWidth 10⟩] := by
  have hone : ∀ v : EventVector, (eventOps v).length = 1 → v = 1#4 ∨ v = 2#4 ∨ v = 4#4 ∨ v = 8#4 := by decide
  obtain rfl | rfl | rfl | rfl := hone ev (congrArg List.length h) <;> cases h <;> rfl

/-! ## Bus words (30 R90, R91, R95) -/

/-- 00 R7 leaves `CMD_SET_ADDR` its top bit only. -/
theorem Config.cmdSetAddr_cases {c : Config} (hv : c.valid = true) :
    c.cmdSetAddr = 0x00#8 ∨ c.cmdSetAddr = 0x80#8 := by
  have htop : ∀ b : Byte, b.setWidth 7 = 0#7 → b = 0x00#8 ∨ b = 0x80#8 := by decide
  simp only [Config.valid, Bool.and_eq_true, beq_iff_eq] at hv
  exact htop _ hv.2

/-- A byte with the top bit of `CMD_SET_ADDR` is the set-address byte of its low seven bits (30 R94). -/
theorem setAddrWord_setWidth {c : Config} (hv : c.valid = true) {b : Byte}
    (hb : b.getLsbD 7 = c.cmdSetAddr.getLsbD 7) : setAddrWord c (b.setWidth 7) = cmdWord b := by
  refine congrArg cmdWord ?_
  obtain hset | hset := Config.cmdSetAddr_cases hv <;> rw [hset] at hb ⊢ <;> revert b <;> decide

/-- A set-address byte keeps the top bit of `CMD_SET_ADDR` and carries the address below it. -/
theorem setAddrWord_byte {c : Config} (hv : c.valid = true) (a : DdAddr) :
    (setAddrWord c a).byte.getLsbD 7 = c.cmdSetAddr.getLsbD 7 ∧ (setAddrWord c a).byte.setWidth 7 = a := by
  simp only [setAddrWord, cmdWord]
  obtain hset | hset := Config.cmdSetAddr_cases hv <;> rw [hset] <;> revert a <;> decide

/-- The bus operation of a word issues exactly that word. -/
theorem encode_busOp {c : Config} (hv : c.valid = true) (w : TxWord) :
    encode c (busOp c w) = [⟨.busw10, w.busWord⟩] := by
  obtain ⟨rs, b⟩ := w
  cases rs with
  | true => rfl
  | false =>
    simp only [busOp, Bool.false_eq_true, if_false]
    split_ifs with h h h h h htop
    · rw [h]; rfl
    · rw [h]; rfl
    · rw [h]; rfl
    · rw [h]; rfl
    · rw [h]; rfl
    · show [(⟨.busw10, (setAddrWord c (b.setWidth 7)).busWord⟩ : OpWord)] = _
      rw [setAddrWord_setWidth hv htop]; rfl
    · rfl

/-- A write word is the bus word of the transaction word read from it (30 R91). -/
theorem busWord_txOfBus {w : BusWord} (h : w.getLsbD 8 = false) : (txOfBus w).busWord = w := by
  revert w; decide

/-! ## Round trips -/

/-- The encoder gives the operation one word, and the decoder reads that word as the operation. -/
def HasOwnWord (c : Config) (i : Instr) : Prop :=
  ∃ w : OpWord, encode c i = [w] ∧ decode c w.format w.bits = .ok i

section HasOwnWord
variable (c : Config)

theorem hasOwnWord_seqOp (code : BitVec 3) : HasOwnWord c (seqOp code) :=
  ⟨_, encode_seqOp c code, decode_seqState c code⟩

theorem hasOwnWord_initOp (code : BitVec 2) : HasOwnWord c (initOp code) :=
  ⟨_, encode_initOp c code, decode_initState c code⟩

theorem hasOwnWord_engOp (code : BitVec 3) : HasOwnWord c (engOp code) :=
  ⟨_, encode_engOp c code, decode_engState c code⟩

theorem hasOwnWord_gateOp (code : BitVec 2) : HasOwnWord c (gateOp code) :=
  ⟨_, encode_gateOp c code, decode_gateState c code⟩

/-- An operation that the decoder reads from the bus word of `w`. -/
theorem hasOwnWord_of_busOp {c : Config} (hv : c.valid = true) {w : TxWord} {i : Instr} (h : busOp c w = i) :
    HasOwnWord c i :=
  h ▸ ⟨_, encode_busOp hv w, decode_busWord c w⟩

end HasOwnWord

section Distinct
variable {c : Config} (hd : c.distinctCommands = true)
include hd

/-- Where the command bytes differ, each fixed command is read from its own byte (30 R95). -/
theorem busOp_fixed : busOp c (cmdWord c.cmdClear) = .clear ∧ busOp c (cmdWord c.cmdFs4) = .fs4 ∧
    busOp c (cmdWord c.cmdDispOnCur) = .dispOnCur ∧ busOp c (cmdWord c.cmdFs2l4) = .fs2l4 ∧
    busOp c (cmdWord c.cmdFs2l8) = .fs2l8 := by
  simp only [Config.distinctCommands, Bool.and_eq_true, decide_eq_true_eq] at hd
  have hne := hd.1.imp Ne.symm
  simp only [List.pairwise_cons, List.mem_cons, forall_eq_or_imp] at hne
  simp [busOp, cmdWord, hne]

/-- No fixed command has the top bit of the set-address row. -/
theorem busOp_setAddrWord (hv : c.valid = true) (a : DdAddr) : busOp c (setAddrWord c a) = .setAddr (.addr a) := by
  obtain ⟨htop, haddr⟩ := setAddrWord_byte hv a
  have hne : ∀ b ∈ [c.cmdClear, c.cmdFs4, c.cmdDispOnCur, c.cmdFs2l4, c.cmdFs2l8], (setAddrWord c a).byte ≠ b := by
    intro b hb h
    simp only [Config.distinctCommands, Bool.and_eq_true, List.all_eq_true, bne_iff_ne] at hd
    exact hd.2 b hb (h ▸ htop)
  simp only [List.mem_cons, List.not_mem_nil, or_false, forall_eq_or_imp, forall_eq] at hne
  obtain ⟨h1, h2, h3, h4, h5⟩ := hne
  rw [busOp, if_neg (by simp [setAddrWord, cmdWord]), if_neg h1, if_neg h2, if_neg h3, if_neg h4, if_neg h5,
    if_pos htop, haddr]

end Distinct

/-- Settles O1: a state arm is read from its code, an event from its bit, a bus operation from the word it issues. -/
theorem decodeEncodeRoundTrip : Obligations.DecodeEncodeRoundTrip := by
  intro c i hv hd hi
  show HasOwnWord c i
  obtain ⟨hclear, hfs4, hdispOnCur, hfs2l4, hfs2l8⟩ := busOp_fixed hd
  cases i with
  | seqInit => exact hasOwnWord_seqOp c SeqCode.sInit
  | seqSample => exact hasOwnWord_seqOp c SeqCode.sSample
  | seqStep => exact hasOwnWord_seqOp c SeqCode.sStep
  | seqRefresh => exact hasOwnWord_seqOp c SeqCode.sRefresh
  | seqPace => exact hasOwnWord_seqOp c SeqCode.sPace
  | seqUnused code => exact seqOp_unused (of_decide_eq_true hi) ▸ hasOwnWord_seqOp c code
  | initIssue => exact hasOwnWord_initOp c InitCode.iIssue
  | initWait => exact hasOwnWord_initOp c InitCode.iWait
  | initReady => exact hasOwnWord_initOp c InitCode.iReady
  | initUnused => exact hasOwnWord_initOp c 3#2
  | engIdle => exact hasOwnWord_engOp c EngCode.dIdle
  | engSetup => exact hasOwnWord_engOp c EngCode.dSetup
  | engEon => exact hasOwnWord_engOp c EngCode.dEon
  | engEhi => exact hasOwnWord_engOp c EngCode.dEhi
  | engElo => exact hasOwnWord_engOp c EngCode.dElo
  | engDone => exact hasOwnWord_engOp c EngCode.dDone
  | engUnused code => exact engOp_unused (of_decide_eq_true hi) ▸ hasOwnWord_engOp c code
  | gateIdle => exact hasOwnWord_gateOp c GateCode.gIdle
  | gateIssue => exact hasOwnWord_gateOp c GateCode.gIssue
  | gateWait => exact hasOwnWord_gateOp c GateCode.gWait
  | gateDone => exact hasOwnWord_gateOp c GateCode.gDone
  | tick => exact ⟨⟨.events, 1#10⟩, rfl, rfl⟩
  | dirEdge => exact ⟨⟨.events, 2#10⟩, rfl, rfl⟩
  | modeEdge => exact ⟨⟨.events, 4#10⟩, rfl, rfl⟩
  | delayStart => exact ⟨⟨.events, 8#10⟩, rfl, rfl⟩
  | clear => exact hasOwnWord_of_busOp hv hclear
  | fs4 => exact hasOwnWord_of_busOp hv hfs4
  | dispOnCur => exact hasOwnWord_of_busOp hv hdispOnCur
  | fs2l4 => exact hasOwnWord_of_busOp hv hfs2l4
  | fs2l8 => exact hasOwnWord_of_busOp hv hfs2l8
  | data v => exact hasOwnWord_of_busOp hv (busOp_dataWord c v)
  | sendcmd b => exact hasOwnWord_of_busOp hv (eq_of_beq hi)
  | setAddr x =>
    cases x with
    | addr a => exact hasOwnWord_of_busOp hv (busOp_setAddrWord hd hv a)
    | rowCol row col => cases hi
  | puts _ | putsAt _ _ _ | putint _ | putfix _ | init => cases hi

/-- A word accepted under a condition meets it, and has the one operation the decoder answers there. -/
theorem eq_of_ite_ok {p : Prop} [Decidable p] {i j : Instr} {r : Reject}
    (h : (if p then .ok i else .error r : Except Reject Instr) = .ok j) : p ∧ i = j := by
  split_ifs at h with hp
  exact ⟨hp, Except.ok.inj h⟩

/-- Settles O2: an accepted word is the code, the event vector or the bus word that the decoder read from it. -/
theorem decodedWordReencodes : Obligations.DecodedWordReencodes := by
  intro c f w i hv h
  cases f with
  | busw10 =>
    simp only [decode] at h
    split_ifs at h with hread
    cases h
    rw [encode_busOp hv, busWord_txOfBus (eq_false_of_ne_true hread)]
  | seqState =>
    obtain ⟨hlt, rfl⟩ := eq_of_ite_ok h
    rw [encode_seqOp, setWidth_setWidth_of_lt (by decide) hlt]
  | initState =>
    obtain ⟨hlt, rfl⟩ := eq_of_ite_ok h
    rw [encode_initOp, setWidth_setWidth_of_lt (by decide) hlt]
  | engState =>
    obtain ⟨hlt, rfl⟩ := eq_of_ite_ok h
    rw [encode_engOp, setWidth_setWidth_of_lt (by decide) hlt]
  | gateState =>
    obtain ⟨hlt, rfl⟩ := eq_of_ite_ok h
    rw [encode_gateOp, setWidth_setWidth_of_lt (by decide) hlt]
  | events =>
    simp only [decode] at h
    split_ifs at h with hlt
    split at h
    · cases h
    · next op hop =>
      cases h
      rw [encode_of_eventOps hop, setWidth_setWidth_of_lt (by decide) hlt]
    · cases h

/-! ## Layouts as numbers (30 R91) -/

/-- Settles O3: the layouts are concatenations, a read word is refused, and a write word is the bus word of the
transaction word read from it. -/
theorem transactionWordLayout : Obligations.TransactionWordLayout := by
  refine ⟨fun w => ?_, fun c w => ⟨fun hread => if_pos hread, fun hwrite => ?_⟩⟩
  · obtain ⟨rs, b⟩ := w
    revert rs b; decide
  · exact ⟨txOfBus w, busWord_txOfBus hwrite, if_neg (by rw [hwrite]; decide)⟩

/-- Settles O4, by running the decoder on each word. -/
theorem specWordsDecode : Obligations.SpecWordsDecode := by
  refine ⟨?_, ?_, ?_, ?_, ?_, ?_, ?_, ?_, ?_, ?_⟩ <;> rfl

/-! ## The event vector (30 R97) -/

theorem mem_eventOps_iff (ev : EventVector) (i : Instr) : i ∈ eventOps ev ↔
    (i = .tick ∧ ev.getLsbD 0 = true) ∨ (i = .dirEdge ∧ ev.getLsbD 1 = true) ∨
      (i = .modeEdge ∧ ev.getLsbD 2 = true) ∨ (i = .delayStart ∧ ev.getLsbD 3 = true) := by
  unfold eventOps
  split_ifs <;> simp_all

namespace Machine

/-- The bits of the event vector, lowest first. -/
theorem eventVector_bits (s : State) :
    (eventVector s).getLsbD 0 = tickEvent s ∧ (eventVector s).getLsbD 1 = acceptD s ∧
      (eventVector s).getLsbD 2 = acceptM s ∧ (eventVector s).getLsbD 3 = dlyStart s := by
  have hbits : ∀ a b c d : Bool,
      let ev := BitVec.ofBool d ++ (BitVec.ofBool c ++ (BitVec.ofBool b ++ BitVec.ofBool a))
      ev.getLsbD 0 = a ∧ ev.getLsbD 1 = b ∧ ev.getLsbD 2 = c ∧ ev.getLsbD 3 = d := by
    decide
  exact hbits _ _ _ _

/-- Settles O5. -/
theorem eventVectorSelectsEvents : Obligations.EventVectorSelectsEvents := by
  intro s
  obtain ⟨htick, hdir, hmode, hstart⟩ := eventVector_bits s
  exact ⟨⟨htick, hdir, hmode, hstart⟩, fun i => by rw [mem_eventOps_iff, htick, hdir, hmode, hstart]⟩

end Machine

end Sys2Proof
end

section
/-! PROOFS. The display commands: which word each bus operation hands to the engine, and which words each
pseudo-operation puts in the waiting list (spec/44_display_commands.md, spec/46_host_formatting.md). -/

namespace Sys2Proof

/-! ## `GOTO` (44 R224, R231) -/

theorem gotoAddr_of_rowBase {row base : Nat} (h : rowBase row = some base) (col : Nat) :
    gotoAddr row col = some (BitVec.ofNat 7 ((base + col) % 128)) := by
  rw [gotoAddr, h, Option.map_some]

theorem gotoAddr_eq_none {row : Nat} (h : 3 < row) (col : Nat) : gotoAddr row col = none := by
  rw [← Option.not_isSome_iff_eq_none, gotoAddr_isSome]
  simpa using h

/-- `ROW_BASE` as pairs (00 R7). -/
theorem rowBase_of_pair {row base : Nat}
    (h : (row, base) = (0, 0x00) ∨ (row, base) = (1, 0x40) ∨ (row, base) = (2, 0x10) ∨ (row, base) = (3, 0x50)) :
    rowBase row = some base := by
  obtain h | h | h | h := h <;> cases h <;> rfl

/-- The set-address word of a display address given as a number. -/
theorem setAddrWord_ofNat (c : Config) (n : Nat) :
    setAddrWord c (BitVec.ofNat 7 (n % 128)) = ⟨false, c.cmdSetAddr ||| BitVec.ofNat 8 (n % 128)⟩ := by
  have hwide : (BitVec.ofNat 7 (n % 128)).setWidth 8 = BitVec.ofNat 8 (n % 128) := by
    refine BitVec.eq_of_toNat_eq ?_
    simp only [BitVec.toNat_setWidth, BitVec.toNat_ofNat]
    omega
  rw [setAddrWord, hwide, cmdWord]

namespace Machine

section Request
variable {s : State}

/-- An idle engine takes the word, in the terms of the statements (43 R198). -/
theorem request_eq_takes (h : s.eng.state = EngCode.dIdle) (w : TxWord) :
    Host.Outcome.next (request w s) = (.next (takes w.rs w.byte s) : Result) :=
  congrArg Host.Outcome.next (request_of_idle w s h)

theorem exec_goto {row col : Nat} {a : DdAddr} (h : gotoAddr row col = some a) :
    exec (.setAddr (.rowCol row col)) s = .next (request (setAddrWord s.cfg a) s) := by
  simp [exec, execSetAddr, h]

theorem exec_goto_fault {row : Nat} (h : 3 < row) (col : Nat) :
    exec (.setAddr (.rowCol row col)) s = .fault (.gotoRowOutOfRange row) := by
  simp [exec, execSetAddr, gotoAddr_eq_none h]

end Request

/-- Settles O6: each bus operation requests its word. -/
theorem busOperationsTaken : Obligations.BusOperationsTaken := fun s h =>
  ⟨request_eq_takes h (cmdWord s.cfg.cmdClear), request_eq_takes h (cmdWord s.cfg.cmdFs4),
    request_eq_takes h (cmdWord s.cfg.cmdDispOnCur), request_eq_takes h (cmdWord s.cfg.cmdFs2l4),
    request_eq_takes h (cmdWord s.cfg.cmdFs2l8), fun b => request_eq_takes h (cmdWord b),
    fun v => request_eq_takes h (dataWord v), fun a => request_eq_takes h (setAddrWord s.cfg a)⟩

/-- Settles O7: each bus operation is a request, and a busy engine ignores a request. -/
theorem busOperationsIgnoredWhenBusy : Obligations.BusOperationsIgnoredWhenBusy := by
  intro s hbusy i hi
  have hignored : ∀ w, Host.Outcome.next (request w s) = (.next s : Result) := fun w =>
    congrArg Host.Outcome.next (request_of_busy w s hbusy)
  obtain rfl | rfl | rfl | rfl | rfl | ⟨b, rfl⟩ | ⟨v, rfl⟩ | ⟨a, rfl⟩ | ⟨row, col, hrow, rfl⟩ := hi
  case inr.inr.inr.inr.inr.inr.inr.inr =>
    obtain ⟨a, ha⟩ := Option.isSome_iff_exists.mp ((gotoAddr_isSome row col).trans (decide_eq_true hrow))
    rw [exec_goto ha, hignored]
  all_goals exact hignored _

/-- Settles O8: a row up to 3 has a base, no other row an address. -/
theorem gotoSetsRowBasePlusColumn : Obligations.GotoSetsRowBasePlusColumn := by
  refine fun s col => ⟨fun hidle row base hrow => ?_, fun row hrow => exec_goto_fault hrow col⟩
  rw [exec_goto (gotoAddr_of_rowBase (rowBase_of_pair hrow) col), setAddrWord_ofNat]
  exact request_eq_takes hidle _

/-! ## Pseudo-operations (44 R229, R230, R231; 46 R270, R272; 43 R192) -/

section Pseudo
variable (s : State)

theorem exec_putsAt {row col : Nat} {a : DdAddr} (t : Text) (h : gotoAddr row col = some a) :
    exec (.putsAt row col t) s = .next (issue (setAddrWord s.cfg a :: putsWords t) s) := by
  simp [exec, execPutsAt, putsAtWords, h]

theorem exec_putsAt_fault {row : Nat} (h : 3 < row) (col : Nat) (t : Text) :
    exec (.putsAt row col t) s = .fault (.gotoRowOutOfRange row) := by
  simp [exec, execPutsAt, putsAtWords, gotoAddr_eq_none h]

end Pseudo

/-- Settles O9: each pseudo-operation issues its list of words. -/
theorem pseudoOperationsIssueTheirWords : Obligations.PseudoOperationsIssueTheirWords := by
  refine fun s => ⟨fun t => rfl, fun row base col t hrow => ?_, fun row col t hrow => exec_putsAt_fault s hrow col t,
    fun v => rfl, fun v => rfl, ?_⟩
  · rw [exec_putsAt s t (gotoAddr_of_rowBase (rowBase_of_pair hrow) col), setAddrWord_ofNat]
    rfl
  · simp only [exec, execInit, issue, initScript, initBytes]
    cases s.cfg.busWidth <;> rfl

end Machine

end Sys2Proof
end

section
/-! PROOFS. What each arm and each event writes (spec/40_tick_timer.md, spec/41_edge_latch_sync.md,
spec/42_stepper_sequencer.md, spec/43_display_bus_multiplexer.md, spec/45_display_refresh_gate.md). -/

namespace Sys2Proof.Machine

/-! ## Events -/

/-- Settles O12: the increment of a 16-bit word is modulo `2^16`. -/
theorem tickResult : Obligations.TickResult := by
  intro s
  have hcount : s.timer.tickCount + 1 = BitVec.ofNat 16 ((s.timer.tickCount.toNat + 1) % 2 ^ 16) :=
    BitVec.eq_of_toNat_eq (by simp [BitVec.toNat_add])
  rw [← hcount]
  rfl

theorem gateDone_iff {s : State} : gateDone s = true ↔ s.gate.state = GateCode.gDone := by
  simp [gateDone]

/-- Settles O13: the target is that of the sequencer when it asks. -/
theorem delayStartResult : Obligations.DelayStartResult := by
  intro s
  have hticks : dlyTicks s = if s.seq.state = SeqCode.sRefresh ∧ s.gate.state = GateCode.gDone then s.cfg.paceTicks
      else s.cfg.settleTicks := by
    simp only [dlyTicks, seqDlyStart_iff]
  rw [← hticks]
  rfl

/-- Settles O19: a flag has two values. -/
theorem edgeEventResult : Obligations.EdgeEventResult := by
  intro s
  have hdir := congrFun toggleDirection_eq s.dir.flag
  have hmode := congrFun toggleMode_eq s.mode.flag
  rw [← hdir, ← hmode]
  exact ⟨rfl, rfl⟩

/-! ## The sequencer (42 R160, R163, R166, R167, R169) -/

/-- Settles O24: the conditions of the arms are the signals `de_ready`, `gate_done` and `dly_done`. -/
theorem sequencerArmsResult : Obligations.SequencerArmsResult := by
  intro s
  simp only [← deReady_iff, ← gateDone_iff, ← dlyDone_iff]
  exact ⟨rfl, rfl, rfl, rfl⟩

/-- In Full an index above 3 retreats one by one down to 3 (42 R162, R169). -/
theorem iterate_nextIdx_counterClockwise {i : StepIndex} {j : Nat} (h : j ≤ i.toNat) :
    ((fun x => nextIdx x .counterClockwise .full)^[j] i).toNat = i.toNat - j := by
  induction j with
  | zero => rfl
  | succ j ih =>
    have hj := ih (Nat.le_of_succ_le h)
    rw [Function.iterate_succ_apply', nextIdx_counterClockwise, hj, if_neg (by omega)]
    omega

/-- Settles O27: the descent passes every index down to 3, and the Full table is read at the index modulo 4. -/
theorem outOfRangeIndexRecovers : Obligations.OutOfRangeIndexRecovers := by
  intro c i hi
  refine ⟨nextIdx_clockwise i .full, fun j hj => ?_⟩
  have hidx := iterate_nextIdx_counterClockwise (i := i) (j := j) (by omega)
  refine ⟨hidx, ?_⟩
  rw [tableEntry_full, hidx]

/-! ## The init runner (43 R192 to R194, R196, R197) -/

theorem exec_initWait (s : State) : exec .initWait s = .next { s with
    ini :=
      if txDone s then
        if s.ini.ptr.toNat = initLen s.cfg - 1 then { s.ini with state := InitCode.iReady }
        else { ptr := s.ini.ptr + 1, state := InitCode.iIssue }
      else s.ini } := rfl

/-- Settles O32: the list of R192 is the script the runner reads, and its length is `INIT_LEN`. -/
theorem initRunnerArmsResult : Obligations.InitRunnerArmsResult := by
  intro s script
  have hscript : script = initBytes s.cfg := rfl
  have hlen : script.length = initLen s.cfg := initBytes_length s.cfg
  have hpos : 0 < initLen s.cfg := initLen_pos s.cfg
  refine ⟨fun b hb => ?_, fun hini => ?_, rfl, fun hdone hlast => ?_, fun hdone hmore => ?_, fun hrun => ?_, rfl, rfl⟩
  · simp [initWord, initByteAt, ← hscript, hb, cmdWord]
  · rw [txWord, if_neg (mt deReady_iff.mp hini)]
  · rw [exec_initWait, if_pos (txDone_iff.mpr hdone), if_pos (by omega)]
  · rw [exec_initWait, if_pos (txDone_iff.mpr hdone), if_neg (by omega)]
  · rw [exec_initWait, if_neg (mt txDone_iff.mp hrun)]

/-! ## The transaction engine (43 R191, R198 to R202, R204) -/

/-- The data lines of a phase as numbers (43 R191). -/
theorem busData_eight (b : Byte) (nib : Bool) : busData .eight b nib = b := by
  cases nib <;> rfl

theorem busData_four_first (b : Byte) : (busData .four b false).toNat = 16 * (b.toNat / 16) := by
  revert b; decide

theorem busData_four_second (b : Byte) : (busData .four b true).toNat = 16 * (b.toNat % 16) := by
  revert b; decide

theorem nph_le_two (w : BusWidth) : w.nph ≤ 2 := by
  cases w <;> decide

theorem nph_eq_two_iff {w : BusWidth} : w.nph = 2 ↔ w = .four := by
  cases w <;> simp [BusWidth.nph]

/-- Settles O33. -/
theorem engineArmsResult : Obligations.EngineArmsResult := by
  intro s
  refine ⟨fun htx => ?_, fun htx => ?_, ⟨busData s.cfg.busWidth s.eng.txByte s.eng.nib, rfl, fun hw => ?_,
    fun hw hnib => ?_, fun hw hnib => ?_⟩, rfl, ?_, ?_, rfl, fun code => rfl⟩
  · simp [exec, execEngIdle, htx, takes, Engine.accept]
  · simp [exec, execEngIdle, htx]
  · rw [hw, busData_eight]
  · rw [hw, hnib, busData_four_first]
  · rw [hw, hnib, busData_four_second]
  · simp only [exec, execEngEhi]
    split_ifs <;> rfl
  · simp only [exec, execEngElo, nph_eq_two_iff]
    cases hdone : dlyDone s
    · rfl
    · simp only [if_true, Bool.true_eq_false, if_false]
      split_ifs <;> rfl

/-! ## The refresh gate (45 R253 to R256) -/

/-- Settles O41. -/
theorem gateArmsResult : Obligations.GateArmsResult := by
  intro s
  refine ⟨fun w hw => ?_, fun hini => ?_, fun hstart hchanged => ?_, fun hstart hchanged => ?_, fun hstart => ?_, rfl,
    fun hdone hlast => ?_, fun hdone hmore => ?_, fun hrun => ?_, rfl⟩
  · simp [gateWord, renderWordAt, hw]
  · rw [txWord, if_pos (deReady_iff.mpr hini)]
  · simp [exec, execGateIdle, hstart, hchanged]
  · simp [exec, execGateIdle, hstart, hchanged]
  · simp [exec, execGateIdle, hstart]
  · simp [exec, execGateWait, hdone, hlast, renderLast]
  · simp [exec, execGateWait, hdone, hmore, renderLast]
  · simp [exec, execGateWait, hrun]

end Sys2Proof.Machine
end

section
/-! PROOFS. Frames: what an operation leaves as it was, owner by owner (spec/10_state.md R36). Each family is told first
which part of the state its operations write at all. -/

namespace Sys2Proof.Machine

/-- With the whole display kept, every cell reads as before. -/
theorem sameOutside_of_eq {s t : State} (hcfg : t.cfg = s.cfg) (hscript : t.script = s.script)
    (hinputs : t.inputs = s.inputs) (hcycle : t.cycle = s.cycle) (hdisplay : t.display = s.display) :
    sameOutside s t := by
  simp only [sameOutside, readByte, hcfg, hscript, hinputs, hcycle, hdisplay, true_and, implies_true]

/-! ## The sequencer -/

/-- What an arm of the sequencer does: it writes the sequencer's registers only, the step index and the motor port in
`S_STEP`, the snapshot in `S_SAMPLE`. -/
structure SequencerFrame (i : Instr) (s t : State) : Prop where
  only : ∃ x, t = { s with seq := x }
  motor : i ≠ .seqStep → t.seq.stepIdx = s.seq.stepIdx ∧ t.seq.motorPhase = s.seq.motorPhase
  snapshot : i ≠ .seqSample → t.seq.snapDir = s.seq.snapDir ∧ t.seq.snapMode = s.seq.snapMode

theorem sequencerFrame {i : Instr} {s t : State} (hi : i = .seqInit ∨ i = .seqSample ∨ i = .seqStep ∨
    i = .seqRefresh ∨ i = .seqPace ∨ ∃ code, i = .seqUnused code) (h : exec i s = .next t) :
    SequencerFrame i s t := by
  obtain rfl | rfl | rfl | rfl | rfl | ⟨code, rfl⟩ := hi <;> cases h
  case inr.inl => exact ⟨⟨_, rfl⟩, fun _ => ⟨rfl, rfl⟩, fun hne => absurd rfl hne⟩
  case inr.inr.inl => exact ⟨⟨_, rfl⟩, fun hne => absurd rfl hne, fun _ => ⟨rfl, rfl⟩⟩
  all_goals exact ⟨⟨_, rfl⟩, fun _ => ⟨rfl, rfl⟩, fun _ => ⟨rfl, rfl⟩⟩

/-- Settles O55. -/
theorem frameSequencer : Obligations.FrameSequencer := by
  intro i s t hi h
  obtain ⟨⟨x, rfl⟩, hmotor, hsnapshot⟩ := sequencerFrame hi h
  exact ⟨rfl, ⟨rfl, rfl⟩, ⟨rfl, rfl⟩, rfl, sameOutside_of_eq rfl rfl rfl rfl rfl, hmotor, hsnapshot⟩

/-! ## The init runner -/

/-- An arm of the init runner writes the runner's registers only, the pointer in `I_WAIT`. -/
structure InitRunnerFrame (i : Instr) (s t : State) : Prop where
  only : ∃ x, t = { s with ini := x }
  ptr : i ≠ .initWait → t.ini.ptr = s.ini.ptr

theorem initRunnerFrame {i : Instr} {s t : State}
    (hi : i = .initIssue ∨ i = .initWait ∨ i = .initReady ∨ i = .initUnused) (h : exec i s = .next t) :
    InitRunnerFrame i s t := by
  obtain rfl | rfl | rfl | rfl := hi <;> cases h
  case inr.inl => exact ⟨⟨_, rfl⟩, fun hne => absurd rfl hne⟩
  all_goals exact ⟨⟨_, rfl⟩, fun _ => rfl⟩

/-- Settles O56. -/
theorem frameInitRunner : Obligations.FrameInitRunner := by
  intro i s t hi h
  obtain ⟨⟨x, rfl⟩, hptr⟩ := initRunnerFrame hi h
  exact ⟨rfl, ⟨rfl, rfl⟩, rfl, rfl, rfl, sameOutside_of_eq rfl rfl rfl rfl rfl, hptr⟩

/-! ## The engine and the bus operations -/

/-- The arms of the engine from `D_SETUP` on and its unused codes: they latch no word. -/
def KeepsWord (i : Instr) : Prop :=
  i = .engSetup ∨ i = .engEon ∨ i = .engEhi ∨ i = .engElo ∨ i = .engDone ∨ ∃ code, i = .engUnused code

/-- An arm of the engine or a bus operation writes the engine's registers only: the select and data lines in `D_SETUP`,
the strobe in `D_EON` and `D_EHI`, the latched word in no arm from `D_SETUP` on. -/
structure EngineFrame (i : Instr) (s t : State) : Prop where
  only : ∃ x, t = { s with eng := x }
  lines : i ≠ .engSetup → t.eng.lcdRs = s.eng.lcdRs ∧ t.eng.lcdRw = s.eng.lcdRw ∧ t.eng.lcdD = s.eng.lcdD
  strobe : i ≠ .engEon → i ≠ .engEhi → t.eng.lcdE = s.eng.lcdE
  word : KeepsWord i → flightWord t = flightWord s

/-- A request latches its word or is ignored: the lines stay as they are. -/
theorem engineFrame_of_request {i : Instr} {s t : State} (hi : ¬KeepsWord i) {w : TxWord}
    (h : Host.Outcome.next (request w s) = (.next t : Result)) : EngineFrame i s t := by
  cases h
  by_cases hidle : s.eng.state = EngCode.dIdle
  · rw [request_of_idle w s hidle]
    exact ⟨⟨_, rfl⟩, fun _ => ⟨rfl, rfl, rfl⟩, fun _ _ => rfl, fun hk => absurd hk hi⟩
  · rw [request_of_busy w s hidle]
    exact ⟨⟨_, rfl⟩, fun _ => ⟨rfl, rfl, rfl⟩, fun _ _ => rfl, fun hk => absurd hk hi⟩

/-- Every set-address operation that answers a next state is a request. -/
theorem exec_setAddr_eq_next {x : AddrOperand} {s t : State} (h : exec (.setAddr x) s = .next t) :
    ∃ w, Host.Outcome.next (request w s) = (.next t : Result) := by
  cases x with
  | addr a => exact ⟨_, h⟩
  | rowCol row col =>
    cases ha : gotoAddr row col with
    | some a => exact ⟨_, (exec_goto ha).symm.trans h⟩
    | none => simp [exec, execSetAddr, ha] at h

theorem engineFrame_idle {s t : State} (h : exec .engIdle s = .next t) : EngineFrame .engIdle s t := by
  cases h
  refine ⟨⟨_, rfl⟩, fun _ => ?_, fun _ _ => ?_, fun hk => by simp [KeepsWord] at hk⟩ <;> dsimp only <;> split_ifs <;>
    simp

theorem engineFrame_ehi {s t : State} (h : exec .engEhi s = .next t) : EngineFrame .engEhi s t := by
  cases h
  refine ⟨⟨_, rfl⟩, fun _ => ?_, fun _ hne => absurd rfl hne, fun _ => ?_⟩ <;> dsimp only [flightWord] <;> split_ifs <;>
    simp

theorem engineFrame_elo {s t : State} (h : exec .engElo s = .next t) : EngineFrame .engElo s t := by
  cases h
  refine ⟨⟨_, rfl⟩, fun _ => ?_, fun _ _ => ?_, fun _ => ?_⟩ <;> dsimp only [flightWord] <;> split_ifs <;> simp

/-- Settles O57. -/
theorem frameEngine : Obligations.FrameEngine := by
  intro i s t hi h
  obtain ⟨⟨x, rfl⟩, hlines, hstrobe, hword⟩ : EngineFrame i s t := by
    obtain rfl | rfl | rfl | rfl | rfl | rfl | ⟨code, rfl⟩ | hbus := hi
    · exact engineFrame_idle h
    · cases h
      exact ⟨⟨_, rfl⟩, fun hne => absurd rfl hne, fun _ _ => rfl, fun _ => rfl⟩
    · cases h
      exact ⟨⟨_, rfl⟩, fun _ => ⟨rfl, rfl, rfl⟩, fun hne => absurd rfl hne, fun _ => rfl⟩
    · exact engineFrame_ehi h
    · exact engineFrame_elo h
    · cases h
      exact ⟨⟨_, rfl⟩, fun _ => ⟨rfl, rfl, rfl⟩, fun _ _ => rfl, fun _ => rfl⟩
    · cases h
      exact ⟨⟨_, rfl⟩, fun _ => ⟨rfl, rfl, rfl⟩, fun _ _ => rfl, fun _ => rfl⟩
    · have hnot : ¬KeepsWord i := by
        obtain rfl | rfl | rfl | rfl | rfl | ⟨x, rfl⟩ | ⟨v, rfl⟩ | ⟨b, rfl⟩ := hbus <;> simp [KeepsWord]
      obtain ⟨w, hw⟩ : ∃ w, Host.Outcome.next (request w s) = (.next t : Result) := by
        obtain rfl | rfl | rfl | rfl | rfl | ⟨x, rfl⟩ | ⟨v, rfl⟩ | ⟨b, rfl⟩ := hbus
        case inr.inr.inr.inr.inr.inl => exact exec_setAddr_eq_next h
        all_goals exact ⟨_, h⟩
      exact engineFrame_of_request hnot hw
  exact ⟨rfl, ⟨rfl, rfl⟩, rfl, rfl, rfl, sameOutside_of_eq rfl rfl rfl rfl rfl, hlines, hstrobe, hword⟩

/-! ## The gate -/

/-- An arm of the gate writes the gate's registers only: the pair last rendered in `G_WAIT`, the pointer not in
`G_ISSUE` or `G_DONE`. -/
structure GateFrame (i : Instr) (s t : State) : Prop where
  only : ∃ x, t = { s with gate := x }
  rendered : i ≠ .gateWait → t.gate.lastValid = s.gate.lastValid ∧ t.gate.lastDir = s.gate.lastDir ∧
    t.gate.lastMode = s.gate.lastMode
  ptr : i = .gateIssue ∨ i = .gateDone → t.gate.rPtr = s.gate.rPtr

theorem gateFrame {i : Instr} {s t : State} (hi : i = .gateIdle ∨ i = .gateIssue ∨ i = .gateWait ∨ i = .gateDone)
    (h : exec i s = .next t) : GateFrame i s t := by
  obtain rfl | rfl | rfl | rfl := hi <;> cases h
  · refine ⟨⟨_, rfl⟩, fun _ => ?_, by simp⟩
    dsimp only
    split_ifs <;> exact ⟨rfl, rfl, rfl⟩
  · exact ⟨⟨_, rfl⟩, fun _ => ⟨rfl, rfl, rfl⟩, fun _ => rfl⟩
  · exact ⟨⟨_, rfl⟩, fun hne => absurd rfl hne, by simp⟩
  · exact ⟨⟨_, rfl⟩, fun _ => ⟨rfl, rfl, rfl⟩, fun _ => rfl⟩

/-- Settles O58. -/
theorem frameGate : Obligations.FrameGate := by
  intro i s t hi h
  obtain ⟨⟨x, rfl⟩, hrendered, hptr⟩ := gateFrame hi h
  exact ⟨rfl, ⟨rfl, rfl⟩, rfl, ⟨rfl, rfl⟩, sameOutside_of_eq rfl rfl rfl rfl rfl, hrendered, hptr⟩

/-! ## Events -/

/-- Settles O59: each event writes the registers it names and no others. -/
theorem frameEvents : Obligations.FrameEvents := by
  intro i s t hi h
  obtain rfl | rfl | rfl | rfl := hi <;> cases h <;>
    refine ⟨rfl, ⟨rfl, rfl⟩, rfl, sameOutside_of_eq rfl rfl rfl rfl rfl, ?_⟩
  · exact ⟨fun _ => ⟨⟨rfl, rfl⟩, rfl, rfl⟩, nofun, nofun, nofun⟩
  · exact ⟨nofun, fun _ => ⟨⟨rfl, rfl⟩, rfl⟩, nofun, nofun⟩
  · exact ⟨nofun, nofun, fun _ => ⟨rfl, rfl, rfl⟩, nofun⟩
  · exact ⟨nofun, nofun, nofun, fun _ => ⟨rfl, rfl, rfl⟩⟩

/-! ## Pseudo-operations -/

/-- A pseudo-operation that answers a next state has put its words in the waiting list. -/
theorem exec_pseudo_eq_next {i : Instr} {s t : State} (hi : (∃ x, i = .puts x) ∨ (∃ r c x, i = .putsAt r c x) ∨
    (∃ v, i = .putint v) ∨ (∃ v, i = .putfix v) ∨ i = .init) (h : exec i s = .next t) :
    ∃ ws, issuedWords s.cfg i = some ws ∧ t = issue ws s := by
  obtain ⟨x, rfl⟩ | ⟨r, c, x, rfl⟩ | ⟨v, rfl⟩ | ⟨v, rfl⟩ | rfl := hi
  case inr.inl =>
    cases hws : putsAtWords s.cfg r c x with
    | some ws =>
      simp only [exec, execPutsAt, hws] at h
      cases h
      exact ⟨ws, hws, rfl⟩
    | none => simp [exec, execPutsAt, hws] at h
  all_goals
    cases h
    exact ⟨_, rfl, rfl⟩

/-- Settles O60. -/
theorem framePseudoOperations : Obligations.FramePseudoOperations := by
  intro i s t hi h
  obtain ⟨ws, hws, rfl⟩ := exec_pseudo_eq_next hi h
  exact ⟨rfl, ⟨rfl, rfl⟩, rfl, ⟨rfl, rfl⟩, rfl, rfl, rfl, rfl, rfl, fun _ => rfl, ws, hws, rfl⟩

end Sys2Proof.Machine
end

section
/-! PROOFS. One cycle: the edge latches, the sequencer's loop and snapshot, the lines under the strobe, and how a step
is made of operations (spec/10_state.md R42, spec/41_edge_latch_sync.md, spec/42_stepper_sequencer.md). -/

namespace Sys2Proof.Machine

/-! ## The edge latches (41 R140 to R143, R145, R146) -/

theorem EdgeLatch.accept_iff {α : Type} {l : EdgeLatch α} :
    l.accept = true ↔ l.prev = true ∧ l.sync1 = false ∧ l.lock = 0 := by
  simp [accept, fall, and_assoc]

theorem IsLatch.latchRule {α : Type} {latch : State → EdgeLatch α} {btn : Inputs → Bool} {toggled : α → α}
    (h : IsLatch latch btn toggled) : LatchRule latch btn toggled := by
  intro s hv hr
  refine ⟨_, step_of_run s hv hr, ?_⟩
  simp only [← EdgeLatch.accept_iff, h.cycle]
  exact ⟨rfl, rfl, rfl, fun ha => if_pos ha, fun ha => if_neg ha⟩

/-- Settles O20, for both latches. -/
theorem edgeLatchesEachCycle : Obligations.EdgeLatchesEachCycle :=
  ⟨toggleDirection_eq ▸ isLatch_dir.latchRule, toggleMode_eq ▸ isLatch_mode.latchRule⟩

/-- Settles O23: the button levels of a cycle are read by the two first synchroniser stages only, and by nothing in a
reset. -/
theorem buttonsReachOnlyTheSynchroniser : Obligations.ButtonsReachOnlyTheSynchroniser := by
  intro s t u i j rest hrst ht hu
  obtain ⟨-, ⟨hi, rfl⟩ | ⟨hi, rfl⟩⟩ := step_eq_next ht <;> obtain ⟨-, ⟨hj, rfl⟩ | ⟨hj, rfl⟩⟩ := step_eq_next hu
  · rfl
  · exact absurd (hi.symm.trans (hrst.trans hj)) (by decide)
  · exact absurd (hi.symm.trans (hrst.trans hj)) (by decide)
  · rfl

/-! ## The sequencer (42 R161, R163, R172) -/

/-- Settles O29: the code after each arm of the loop. -/
theorem sequencerNeverLeavesItsLoop : Obligations.SequencerNeverLeavesItsLoop := by
  intro s t hr h
  obtain rfl := eq_cycleOut_of_step hr h
  refine ⟨fun hseq => ?_, fun hseq => ?_, fun hseq => ?_, fun hseq => ?_⟩ <;> rw [cycleOut_seq]
  · rw [seqOut_sample hseq]
  · rw [seqOut_step hseq]
  · rw [seqOut_refresh hseq]
    cases gateDone s <;> simp
  · rw [seqOut_pace hseq]
    cases dlyDone s <;> simp

/-- Every arm of the sequencer but `S_SAMPLE` keeps the snapshot. -/
theorem seqOut_snapshot {s : State} (h : s.seq.state ≠ SeqCode.sSample) :
    (seqOut s).snapDir = s.seq.snapDir ∧ (seqOut s).snapMode = s.seq.snapMode := by
  unfold seqOut
  simp only [if_neg h]
  split_ifs <;> exact ⟨rfl, rfl⟩

/-- The snapshot is kept as long as the gate runs: the sequencer waits for it in `S_REFRESH` (45 R250). -/
theorem Handshake.seqOut_snapshot {s : State} (h : Handshake s) (hgate : s.gate.state ≠ GateCode.gIdle) :
    (seqOut s).snapDir = s.seq.snapDir ∧ (seqOut s).snapMode = s.seq.snapMode :=
  Machine.seqOut_snapshot (by rw [h.gateRuns.mp hgate]; decide)

/-- Settles O30. -/
theorem snapshotOnlyInSample : Obligations.SnapshotOnlyInSample := by
  intro s t hr h
  obtain rfl := eq_cycleOut_of_step hr h
  refine ⟨fun hseq => ?_, seqOut_snapshot, fun hinv => hinv.handshake.seqOut_snapshot⟩
  rw [cycleOut_seq, seqOut_sample hseq]
  exact ⟨rfl, rfl⟩

/-! ## The lines under the strobe (30 R102, 43 R203) -/

/-- Settles O35: the strobe is high in `D_EHI` only, and only `D_SETUP` moves the lines. -/
theorem linesStableUnderStrobe : Obligations.LinesStableUnderStrobe := by
  intro s t hinv hr h hstrobe
  obtain rfl := eq_cycleOut_of_step hr h
  have heng : s.eng.state ≠ EngCode.dSetup := by rw [hinv.lines.strobe.mp hstrobe]; decide
  obtain ⟨hrs, hrw, hd⟩ := engOut_busLines heng
  rw [cycleOut_eng, hinv.delayInv.engineOut_eq]
  exact ⟨hrs, hrw, hd, hrw.trans hinv.lines.writeOnly⟩

/-! ## A step is made of operations (10 R42, 00 R10) -/

section Events
variable {s : State}

theorem tick_mem_iff : .tick ∈ eventOps (eventVector s) ↔ tickEvent s = true := by
  simp [(eventVectorSelectsEvents s).2]

theorem delayStart_mem_iff : .delayStart ∈ eventOps (eventVector s) ↔ dlyStart s = true := by
  simp [(eventVectorSelectsEvents s).2]

theorem dirEdge_mem_iff : .dirEdge ∈ eventOps (eventVector s) ↔ acceptD s = true := by
  simp [(eventVectorSelectsEvents s).2]

theorem modeEdge_mem_iff : .modeEdge ∈ eventOps (eventVector s) ↔ acceptM s = true := by
  simp [(eventVectorSelectsEvents s).2]

end Events

/-- Settles O47: the decoded operations are those `runCycle` runs. -/
theorem stepRunsDecodedOperations : Obligations.StepRunsDecodedOperations := by
  intro s hv hr
  refine ⟨_, step_of_run s hv hr, rfl, rfl, rfl, rfl, ?_⟩
  simp only [decode_seqState, decode_initState, decode_engState, decode_gateState, Except.ok.injEq, tick_mem_iff,
    delayStart_mem_iff, dirEdge_mem_iff, modeEdge_mem_iff, forall_eq']
  refine ⟨⟨_, exec_seqOp s, rfl⟩, ⟨_, exec_initOp s, rfl⟩, ?_, ⟨_, exec_gateOp s, rfl⟩, ?_, ?_, ?_, ?_⟩
  · rintro i hnone rfl
    exact ⟨_, exec_engOp s, by simp [engineOut, hnone], by simp [cycleOut, hnone]⟩
  · exact fun htick => ⟨_, rfl, by simp [timerOut, htick], fun hstart => by simp [timerOut, htick, hstart]⟩
  · exact fun hstart => ⟨_, rfl, timerOut_of_start hstart⟩
  · exact fun ha => ⟨_, rfl, if_pos ha⟩
  · exact fun ha => ⟨_, rfl, if_pos ha⟩

/-- Settles O48: the waiting word is the host word of the cycle. -/
theorem waitingWordRunsItsBusOperation : Obligations.WaitingWordRunsItsBusOperation := by
  intro s w rest hv hr hscript hidle htx
  have hhost : hostWord s = some w := by simp [hostWord, hidle, htx, hscript]
  have heng : engineOut s = s.eng.accept w := by simp [engineOut, hhost]
  refine ⟨_, _, _, decode_busWord s.cfg w, exec_busOp s w hv, step_of_run s hv hr, ?_⟩
  rw [request_of_idle w s hidle]
  simp [cycleOut, flightWord, heng, hhost, hscript]

/-! ## The step is total (10 R42, 60 R291) -/

namespace Display

theorem observe_wf (c : Config) (n : Nat) (e e' : Engine) {d : Display} (h : d.mem.wf) :
    (d.observe c n e e').mem.wf := by
  unfold observe
  split_ifs
  · exact strobe_wf c n e h
  · exact h

theorem onReset_wf (n : Nat) {d : Display} (h : d.mem.wf) : (d.onReset n).mem.wf := by
  unfold onReset
  split_ifs
  · exact Memory.ofContent_wf _
  · exact h

end Display

theorem step_keeps_memory {s t : State} (hm : s.display.mem.wf) (h : step s = .next t) : t.display.mem.wf := by
  obtain ⟨-, ⟨-, rfl⟩ | ⟨-, rfl⟩⟩ := step_eq_next h
  · exact Display.onReset_wf _ (Display.observe_wf _ _ _ _ hm)
  · exact Display.observe_wf _ _ _ _ hm

/-- Settles O54: the configuration check is the two constraints, and past it both kinds of cycle answer. -/
theorem stepIsTotal : Obligations.StepIsTotal := by
  refine fun s => ⟨fun hbad => step_of_invalid s ?_, fun hprescale hset => ?_⟩
  · refine eq_false_of_ne_true fun hv => ?_
    simp only [Config.valid, Bool.and_eq_true, bne_iff_ne, beq_iff_eq] at hv
    obtain hbad | hbad := hbad
    · exact hv.1 hbad
    · exact hbad hv.2
  · have hv : s.cfg.valid = true := by simp [Config.valid, hset, Nat.ne_of_gt hprescale]
    cases hr : (nextInputs s).rst with
    | true =>
      have hstep := step_of_reset s hv hr
      exact ⟨_, hstep, rfl, fun hm => step_keeps_memory hm hstep⟩
    | false =>
      have hstep := step_of_run s hv hr
      exact ⟨_, hstep, rfl, fun hm => step_keeps_memory hm hstep⟩

/-! ## The state after reset (70 R310) -/

/-- Settles O53. -/
theorem resetState : Obligations.ResetState :=
  ⟨rfl, fun _ => ⟨rfl, rfl, rfl, rfl, rfl, rfl, rfl, rfl, rfl, rfl, rfl⟩⟩

/-- Settles O50. -/
theorem coreInvAtReset : Obligations.CoreInvAtReset := fun _ ins hv => coreInv_resetOf hv ins

end Sys2Proof.Machine
end

section
/-! PROOFS. The receiver on the pins and the invariant of a running core: the word of a transaction arrives when its
last strobe falls, and every step keeps the invariant (spec/10_state.md R38; spec/30_encoding.md R99, R102;
spec/43_display_bus_multiplexer.md R199 to R203). -/

namespace Sys2Proof.Machine

/-! ## What a strobe carries (30 R91, R92, R102) -/

/-- The low data lines are 0 at 4 lines (43 R191). -/
theorem busData_four_low (b : Byte) (nib : Bool) : (busData .four b nib).extractLsb' 0 4 = 0#4 := by
  revert b; cases nib <;> decide

/-- At 4 lines the first strobe carries the high nibble of the word. -/
theorem busData_four_first_high (b : Byte) : (busData .four b false).extractLsb' 4 4 = b.extractLsb' 4 4 := by
  revert b; decide

/-- The first nibble and the data of the second strobe make up the bus word. -/
theorem firstNibble_append (e : Engine) :
    e.firstNibble ++ (busData .four e.txByte true).extractLsb' 4 4 = TxWord.busWord ⟨e.txRs, e.txByte⟩ := by
  have hword : ∀ (rs : Bool) (b : Byte), (BitVec.ofBool rs ++ (0#1 ++ b.extractLsb' 4 4) : Nib6) ++
      (busData .four b true).extractLsb' 4 4 = TxWord.busWord ⟨rs, b⟩ := by decide
  exact hword _ _

/-- The strobe that falls at the end of this cycle completes the word in flight. -/
def WordFalls (s : State) : Prop :=
  s.eng.state = EngCode.dEhi ∧ dlyDone s = true ∧ (s.cfg.busWidth = .four → s.eng.nib = true)

section Strobe
variable {s : State} (h : CoreInv s)
include h

/-- The lines under the strobe carry the phase of the latched word. -/
theorem CoreInv.lines_of_ehi (heng : s.eng.state = EngCode.dEhi) : s.eng.lcdRs = s.eng.txRs ∧ s.eng.lcdRw = false ∧
    s.eng.lcdD = busData s.cfg.busWidth s.eng.txByte s.eng.nib := by
  obtain ⟨hrs, hd⟩ := h.lines.carried (.inr (.inl heng))
  exact ⟨hrs, h.lines.writeOnly, hd⟩

theorem CoreInv.cycleOut_display (i : Inputs) :
    (cycleOut i s).display = s.display.observe s.cfg s.cycle s.eng (engOut s) := by
  rw [← h.delayInv.engineOut_eq]
  rfl

/-- In every cycle but the last of `D_EHI` no strobe falls. -/
theorem CoreInv.display_of_noStrobe (i : Inputs) (hno : ¬(s.eng.state = EngCode.dEhi ∧ dlyDone s = true)) :
    (cycleOut i s).display = s.display := by
  rw [h.cycleOut_display, Display.observe, if_neg]
  rw [Bool.and_eq_true, h.lines.strobe]
  rintro ⟨heng, hfall⟩
  have hrun : ¬dlyDone s = true := fun hdone => hno ⟨heng, hdone⟩
  simp [engOut_ehi heng, hrun, h.lines.strobe.mpr heng] at hfall

theorem CoreInv.display_of_strobe (i : Inputs) (heng : s.eng.state = EngCode.dEhi) (hdone : dlyDone s = true) :
    (cycleOut i s).display = s.display.strobe s.cfg s.cycle s.eng := by
  rw [h.cycleOut_display, Display.observe, if_pos]
  simp [engOut_ehi heng, hdone, h.lines.strobe.mpr heng]

/-- At 4 lines the first strobe of a transaction leaves its nibble with the receiver. -/
theorem CoreInv.display_of_firstPhase (i : Inputs) (heng : s.eng.state = EngCode.dEhi) (hdone : dlyDone s = true)
    (hw : s.cfg.busWidth = .four) (hnib : s.eng.nib = false) :
    (cycleOut i s).display = { s.display with half := some s.eng.firstNibble } := by
  obtain ⟨hrs, hrw, hd⟩ := h.lines_of_ehi heng
  have hhalf : s.display.half = none := by simp [h.receiver, hw, Engine.heldNibble, hnib, heng]
  have hpins : pinNibble s.eng = s.eng.firstNibble := by
    rw [pinNibble, hrs, hrw, hd, hw, hnib, busData_four_first_high]
    rfl
  rw [h.display_of_strobe i heng hdone, Display.strobe]
  simp [hw, hhalf, hpins]

/-- The last strobe of a transaction completes the word in flight. -/
theorem CoreInv.display_of_wordFalls (i : Inputs) (hfalls : WordFalls s) : (cycleOut i s).display =
    { s.display with half := none }.complete s.cfg s.cycle (flightWord s).busWord := by
  obtain ⟨heng, hdone, hlast⟩ := hfalls
  obtain ⟨hrs, hrw, hd⟩ := h.lines_of_ehi heng
  rw [h.display_of_strobe i heng hdone, Display.strobe]
  cases hw : s.cfg.busWidth with
  | four =>
    have hnib : s.eng.nib = true := hlast hw
    have hhalf : s.display.half = some s.eng.firstNibble := by simp [h.receiver, hw, Engine.heldNibble, hnib, heng]
    simp only [hhalf, hd, hw, hnib, firstNibble_append]
    rfl
  | eight =>
    have hhalf : s.display.half = none := by simp [h.receiver, hw, Engine.heldNibble]
    have hsame : s.display = { s.display with half := none } := by rw [← hhalf]
    rw [hw, busData_eight] at hd
    rw [hrs, hrw, hd, ← hsame]
    rfl

/-- In every other cycle the receiver may take a first phase, and nothing else of the display changes. -/
theorem CoreInv.display_of_not_wordFalls (i : Inputs) (hno : ¬WordFalls s) :
    ∃ half, (cycleOut i s).display = { s.display with half := half } := by
  by_cases hstrobe : s.eng.state = EngCode.dEhi ∧ dlyDone s = true
  · obtain ⟨heng, hdone⟩ := hstrobe
    have hfirst : s.cfg.busWidth = .four ∧ s.eng.nib = false := by
      simpa [WordFalls, heng, hdone] using hno
    exact ⟨_, h.display_of_firstPhase i heng hdone hfirst.1 hfirst.2⟩
  · exact ⟨s.display.half, h.display_of_noStrobe i hstrobe⟩

end Strobe

/-- Settles O36: the receiver records a word when the last strobe of a transaction falls, and the lines then carry the
last phase of the latched word. -/
theorem wordDeliveredOnPins : Obligations.WordDeliveredOnPins := by
  intro s t h hr ht
  obtain rfl := eq_cycleOut_of_step hr ht
  split_ifs with hfalls
  · rw [h.display_of_wordFalls _ hfalls, Display.complete_lastWord]
  · obtain ⟨half, hdisplay⟩ := h.display_of_not_wordFalls (nextInputs s) hfalls
    rw [hdisplay]

/-! ## The groups of the invariant, kept by a cycle without a reset -/

theorem EdgeLatch.nextLock_le {α : Type} {l : EdgeLatch α} {n : Nat} (h : l.lock ≤ n) : l.nextLock n ≤ n := by
  unfold nextLock
  split_ifs <;> omega

theorem seqOut_code_le (s : State) : (seqOut s).state.toNat ≤ 4 := by
  unfold seqOut
  split_ifs <;> simp_all

theorem toNat_add_one_le {n : Nat} (x : BitVec n) : (x + 1).toNat ≤ x.toNat + 1 := by
  rw [BitVec.toNat_add]
  refine (Nat.mod_le _ _).trans (Nat.add_le_add_left ?_ _)
  exact (BitVec.toNat_ofNat 1 n).trans_le (Nat.mod_le _ _)

/-- The init pointer counts up to the end of its script and no further (43 R194). -/
theorem iniOut_ptr_lt {s : State} (h : s.ini.ptr.toNat < initLen s.cfg) : (iniOut s).ptr.toNat < initLen s.cfg := by
  have hnext : s.ini.ptr.toNat ≠ initLen s.cfg - 1 → (s.ini.ptr + 1).toNat < initLen s.cfg := fun hlast =>
    (toNat_add_one_le s.ini.ptr).trans_lt (by omega)
  unfold iniOut
  split_ifs
  case neg hlast => exact hnext hlast
  all_goals exact h

/-- So does the render pointer (45 R255). -/
theorem gateOut_rPtr_le {s : State} (h : s.gate.rPtr.toNat ≤ renderLast) : (gateOut s).rPtr.toNat ≤ renderLast := by
  have hnext : s.gate.rPtr.toNat ≠ renderLast → (s.gate.rPtr + 1).toNat ≤ renderLast := fun hlast =>
    (toNat_add_one_le s.gate.rPtr).trans (by omega)
  unfold gateOut
  split_ifs
  · exact Nat.zero_le _
  · exact h
  · exact h
  · exact h
  · exact h
  · exact hnext ‹_›
  · exact h
  · exact h

/-- Only a request puts a requester into its waiting state, and it keeps its pointer while it waits. -/
theorem iniOut_wait_cases {s : State} (h : (iniOut s).state = InitCode.iWait) :
    (s.ini.state = InitCode.iIssue ∨ (s.ini.state = InitCode.iWait ∧ txDone s = false)) ∧
      (iniOut s).ptr = s.ini.ptr := by
  unfold iniOut at h ⊢
  split_ifs at h ⊢ <;> simp_all

theorem gateOut_wait_cases {s : State} (h : (gateOut s).state = GateCode.gWait) :
    (s.gate.state = GateCode.gIssue ∨ (s.gate.state = GateCode.gWait ∧ txDone s = false)) ∧
      (gateOut s).rPtr = s.gate.rPtr := by
  unfold gateOut at h ⊢
  split_ifs at h ⊢ <;> simp_all

/-- A transaction in flight keeps its word. -/
theorem engOut_flight {s : State} (h : s.eng.state ≠ EngCode.dIdle) :
    (engOut s).txRs = s.eng.txRs ∧ (engOut s).txByte = s.eng.txByte := by
  unfold engOut
  rw [if_neg h]
  split_ifs <;> exact ⟨rfl, rfl⟩

section Cycle
variable {s : State} (h : CoreInv s) (i : Inputs)
include h

theorem CoreInv.legal_cycleOut : LegalRegisters (cycleOut i s) where
  preCnt := timerOut_preCnt_lt h.legal.preCnt
  lockD := EdgeLatch.nextLock_le h.legal.lockD
  lockM := EdgeLatch.nextLock_le h.legal.lockM
  seqState := seqOut_code_le s
  iState := h.controlInv.iniOut_iState
  iPtr := iniOut_ptr_lt h.legal.iPtr
  dState := (h.controlInv.after_cycle i).dState
  rPtr := gateOut_rPtr_le h.legal.rPtr

theorem CoreInv.cycleOut_engine : (cycleOut i s).eng = engOut s := h.delayInv.engineOut_eq

/-- The word taken by a request is the requester's. -/
theorem CoreInv.flightWord_of_txStart (htx : txStart s = true) : flightWord (cycleOut i s) = txWord s := by
  rw [flightWord, h.cycleOut_engine, h.controlInv.engOut_of_txStart htx]
  rfl

theorem CoreInv.flightWord_of_busy (heng : s.eng.state ≠ EngCode.dIdle) :
    flightWord (cycleOut i s) = flightWord s := by
  obtain ⟨hrs, hbyte⟩ := engOut_flight heng
  rw [flightWord, h.cycleOut_engine, hrs, hbyte]
  rfl

theorem CoreInv.flight_cycleOut : WordInFlight (cycleOut i s) where
  ofInit hwait := by
    obtain ⟨hcases, hptr⟩ := iniOut_wait_cases hwait
    have hword : initWord (cycleOut i s) = initWord s := by
      rw [initWord, cycleOut_ini, hptr]
      rfl
    rw [hword]
    obtain hissue | ⟨hwait, -⟩ := hcases
    · rw [h.flightWord_of_txStart i (txStart_iff.mpr (.inl hissue)), txWord, if_neg (by simp [deReady, hissue])]
    · rw [h.flightWord_of_busy i (h.handshake.initWaits hwait), h.flight.ofInit hwait]
  ofGate hwait := by
    obtain ⟨hcases, hptr⟩ := gateOut_wait_cases hwait
    have hruns : s.gate.state ≠ GateCode.gIdle := by
      obtain hgate | ⟨hgate, -⟩ := hcases <;> simp [hgate]
    have hready := h.handshake.ready_of_gateRuns hruns
    obtain ⟨hdir, hmode⟩ := h.handshake.seqOut_snapshot hruns
    have hword : gateWord (cycleOut i s) = gateWord s := by
      rw [gateWord, cycleOut_gate, cycleOut_seq, hptr, hdir, hmode]
      rfl
    rw [hword]
    obtain hissue | ⟨hwait, -⟩ := hcases
    · rw [h.flightWord_of_txStart i (txStart_iff.mpr (.inr hissue)), txWord, if_pos (deReady_iff.mpr hready)]
    · rw [h.flightWord_of_busy i ((h.handshake.gateWaits hready).mpr hwait), h.flight.ofGate hwait]

/-- Outside `D_EHI` the strobe is low. -/
theorem CoreInv.lcdE_low (heng : s.eng.state ≠ EngCode.dEhi) : s.eng.lcdE = false :=
  eq_false_of_ne_true (mt h.lines.strobe.mp heng)

/-- The strobe goes up with `D_EHI` and down at its end. -/
theorem CoreInv.engOut_strobe : (engOut s).lcdE = true ↔ (engOut s).state = EngCode.dEhi := by
  have hE := h.lcdE_low
  obtain heng | heng | heng | heng | heng | heng := h.controlInv.eng_cases
  · rw [engOut_idle heng]; split_ifs <;> simp [hE, heng]
  · simp [engOut_setup heng, hE, heng]
  · simp [engOut_eon heng]
  · rw [engOut_ehi heng]; split_ifs <;> simp [heng, h.lines.strobe.mpr heng]
  · rw [engOut_elo heng]; split_ifs <;> simp [hE, heng]
  · simp [engOut_done heng, hE, heng]

/-- The lines carry the latched word from `D_SETUP` on: after it the lines, the word and the phase are kept up to
`D_DONE`. -/
theorem CoreInv.engOut_carried (hstate : (engOut s).state = EngCode.dEon ∨ (engOut s).state = EngCode.dEhi ∨
    (engOut s).state = EngCode.dElo ∨ (engOut s).state = EngCode.dDone) :
    (engOut s).lcdRs = (engOut s).txRs ∧
      (engOut s).lcdD = busData s.cfg.busWidth (engOut s).txByte (engOut s).nib := by
  have hcarried := h.lines.carried
  obtain heng | heng | heng | heng | heng | heng := h.controlInv.eng_cases
  · rw [engOut_idle heng] at hstate
    split_ifs at hstate <;> simp [heng] at hstate
  · rw [engOut_setup heng]
    exact ⟨rfl, rfl⟩
  · rw [engOut_eon heng]
    exact hcarried (.inl heng)
  · rw [engOut_ehi heng]
    split_ifs <;> exact hcarried (.inr (.inl heng))
  · rw [engOut_elo heng] at hstate ⊢
    split_ifs at hstate ⊢
    · simp at hstate
    all_goals exact hcarried (.inr (.inr (.inl heng)))
  · simp [engOut_done heng] at hstate

theorem CoreInv.lines_cycleOut : DisplayLines (cycleOut i s) where
  strobe := by rw [h.cycleOut_engine]; exact h.engOut_strobe
  writeOnly := by
    rw [h.cycleOut_engine]
    by_cases heng : s.eng.state = EngCode.dSetup
    · rw [engOut_setup heng]
    · rw [(engOut_busLines heng).2.1, h.lines.writeOnly]
  lowLines hw := by
    have hw : s.cfg.busWidth = .four := hw
    rw [h.cycleOut_engine]
    by_cases heng : s.eng.state = EngCode.dSetup
    · rw [engOut_setup heng, hw]
      exact busData_four_low _ _
    · rw [(engOut_busLines heng).2.2, h.lines.lowLines hw]
  onePhase hw := by
    have hw : s.cfg.busWidth = .eight := hw
    have hnib := h.lines.onePhase hw
    rw [h.cycleOut_engine]
    unfold engOut
    split_ifs <;> simp_all [BusWidth.nph]
  carried hstate := by
    rw [h.cycleOut_engine] at hstate ⊢
    exact h.engOut_carried hstate

/-- Where no strobe falls, what the receiver holds by the engine's registers stays the same. -/
theorem CoreInv.heldNibble_engOut (hno : ¬(s.eng.state = EngCode.dEhi ∧ dlyDone s = true)) :
    (engOut s).heldNibble s.cfg.busWidth = s.eng.heldNibble s.cfg.busWidth := by
  cases hw : s.cfg.busWidth with
  | eight => rfl
  | four =>
    obtain heng | heng | heng | heng | heng | heng := h.controlInv.eng_cases
    · rw [engOut_idle heng]
      split_ifs <;> cases hnib : s.eng.nib <;> simp [Engine.heldNibble, heng, hnib]
    · rw [engOut_setup heng]
      cases hnib : s.eng.nib <;> simp [Engine.heldNibble, heng, hnib, Engine.firstNibble]
    · rw [engOut_eon heng]
      cases hnib : s.eng.nib <;> simp [Engine.heldNibble, heng, hnib, Engine.firstNibble]
    · rw [engOut_ehi heng, if_neg fun hdone => hno ⟨heng, hdone⟩]
    · rw [engOut_elo heng]
      split_ifs <;> cases hnib : s.eng.nib <;> simp_all [Engine.heldNibble, Engine.firstNibble, BusWidth.nph]
    · rw [engOut_done heng]
      cases hnib : s.eng.nib <;> simp [Engine.heldNibble, heng, hnib]

theorem CoreInv.receiver_cycleOut :
    (cycleOut i s).display.half = (cycleOut i s).eng.heldNibble s.cfg.busWidth := by
  rw [h.cycleOut_engine]
  by_cases hstrobe : s.eng.state = EngCode.dEhi ∧ dlyDone s = true
  · obtain ⟨heng, hdone⟩ := hstrobe
    rw [engOut_ehi heng, if_pos hdone]
    by_cases hfalls : WordFalls s
    · rw [h.display_of_wordFalls i hfalls, Display.complete_half]
      cases hw : s.cfg.busWidth with
      | eight => rfl
      | four => simp [Engine.heldNibble, hfalls.2.2 hw]
    · obtain ⟨hw, hnib⟩ : s.cfg.busWidth = .four ∧ s.eng.nib = false := by
        simpa [WordFalls, heng, hdone] using hfalls
      rw [h.display_of_firstPhase i heng hdone hw hnib]
      simp [Engine.heldNibble, hw, hnib, Engine.firstNibble]
  · rw [h.display_of_noStrobe i hstrobe, h.receiver, h.heldNibble_engOut hstrobe]

end Cycle

/-- Every cycle without a reset leaves a running core. -/
theorem CoreInv.after_cycle {s : State} (h : CoreInv s) (i : Inputs) : CoreInv (cycleOut i s) where
  config := h.config
  noHost := (h.controlInv.after_cycle i).noHost
  legal := h.legal_cycleOut i
  handshake := h.controlInv.handshake_cycleOut i
  delay := h.controlInv.delay_cycleOut i
  lines := h.lines_cycleOut i
  flight := h.flight_cycleOut i
  receiver := h.receiver_cycleOut i
  memory := Display.observe_wf _ _ _ _ h.memory

/-! ## A reset -/

theorem Display.onReset_half (n : Nat) (d : Display) : (d.onReset n).half = none := by
  unfold onReset
  split_ifs with h
  · rfl
  · simpa using h

/-- The invariant says of the display only that the receiver is in step and the memory in canonical form. -/
theorem CoreInv.with_display {s : State} (h : CoreInv s) {d : Display} (ins : List Inputs) (n : Nat)
    (hhalf : d.half = s.eng.heldNibble s.cfg.busWidth) (hmem : d.mem.wf) :
    CoreInv { s with display := d, inputs := ins, cycle := n } where
  config := h.config
  noHost := h.noHost
  legal := { h.legal with }
  handshake := { h.handshake with }
  delay := { h.delay with }
  lines := { h.lines with }
  flight := { h.flight with }
  receiver := hhalf
  memory := hmem

/-- A reset leaves a running core. -/
theorem CoreInv.after_reset {s : State} (h : CoreInv s) : CoreInv (resetCycle s) := by
  have hfresh := coreInv_resetOf h.config []
  have hmem := Display.onReset_wf s.cycle (Display.observe_wf s.cfg s.cycle s.eng .reset h.memory)
  exact hfresh.with_display _ _ ((Display.onReset_half _ _).trans hfresh.receiver) hmem

/-- Settles O49. -/
theorem coreInvKept : Obligations.CoreInvKept := by
  intro s t h ht
  obtain ⟨-, ⟨-, rfl⟩ | ⟨-, rfl⟩⟩ := step_eq_next ht
  · exact h.after_reset
  · exact h.after_cycle _

end Sys2Proof.Machine
end

section
/-! PROOFS. The display observer and the content contract: what each transaction does to the cells, the label lines the
render script leaves, and that every step keeps the contract (spec/20_memory.md R74, spec/45_display_refresh_gate.md
R257, R260). -/

namespace Sys2Proof.Machine

/-! ## One transaction (20 R74) -/

theorem Memory.read_write {m : Memory} (h : m.wf) (a : DdAddr) (v : Byte) (b : Nat) :
    (m.write a v).read b = if b = a.toNat then v else m.read b := by
  split_ifs with hb
  · rw [hb]
    exact read_insert_same m a.toNat v h.1
  · exact read_insert_other m a.toNat b v hb

namespace Display

section React
variable {c : Config} {w : TxWord} (d : Display)

theorem react_data (hrs : w.rs = true) :
    d.react c w = { d with mem := d.mem.write d.ac w.byte, ac := d.ac + 1 } :=
  if_pos hrs

theorem react_clear (hrs : w.rs = false) (hb : w.byte = c.cmdClear) : d.react c w = { d with mem := [], ac := 0 } := by
  simp [react, hrs, hb]

theorem react_address (hrs : w.rs = false) (hb : w.byte ≠ c.cmdClear) (htop : w.byte.getLsbD 7 = true) :
    d.react c w = { d with ac := w.byte.setWidth 7 } := by
  rw [react, if_neg (by simp [hrs]), if_neg hb, if_pos htop]

theorem react_other (hrs : w.rs = false) (hb : w.byte ≠ c.cmdClear) (htop : w.byte.getLsbD 7 = false) :
    d.react c w = d := by
  rw [react, if_neg (by simp [hrs]), if_neg hb, if_neg (by rw [htop]; decide)]

/-- The reaction reads the content and the counter only, and writes no other field. -/
theorem react_congr (c : Config) (w : TxWord) {d e : Display} (hmem : e.mem = d.mem) (hac : e.ac = d.ac) :
    e.react c w = { e with mem := (d.react c w).mem, ac := (d.react c w).ac } := by
  unfold react
  split_ifs <;> simp [← hmem, ← hac]

end React

/-- A write word makes the observer react, as long as no phase was lost. -/
theorem complete_write (c : Config) (n : Nat) {w : BusWord} {d : Display} (hsync : d.desync = false)
    (hw : w.getLsbD 8 = false) : (d.complete c n w).mem = (d.react c (txOfBus w)).mem ∧
      (d.complete c n w).ac = (d.react c (txOfBus w)).ac := by
  have hcomplete : d.complete c n w = { d with lastWord := some w }.react c (txOfBus w) := by
    simp only [complete, hsync, hw, Bool.false_eq_true, if_false]
  rw [hcomplete, react_congr c (txOfBus w) (d := d) (e := { d with lastWord := some w }) rfl rfl]
  exact ⟨rfl, rfl⟩

theorem complete_read (c : Config) (n : Nat) {w : BusWord} {d : Display} (hsync : d.desync = false)
    (hw : w.getLsbD 8 = true) : d.complete c n w = { d with lastWord := some w } := by
  simp only [complete, hsync, hw, Bool.false_eq_true, if_false, if_true]

/-! ## The render script (45 R252, R257) -/

theorem reactAll_cons (c : Config) (w : TxWord) (ws : List TxWord) (d : Display) :
    d.reactAll c (w :: ws) = (d.react c w).reactAll c ws := rfl

theorem reactAll_append (c : Config) (ws vs : List TxWord) (d : Display) :
    d.reactAll c (ws ++ vs) = (d.reactAll c ws).reactAll c vs :=
  List.foldl_append

/-- A text is written from the address counter on; the rest of the content is kept. -/
theorem reactAll_putsWords (c : Config) (t : Text) {d : Display} {n : Nat} (hwf : d.mem.wf) (hac : d.ac.toNat = n)
    (hfits : n + t.length < 128) :
    (d.reactAll c (putsWords t)).mem.wf ∧ ∀ a, (d.reactAll c (putsWords t)).mem.read a =
      if n ≤ a ∧ a < n + t.length then t.getD (a - n) 0x20 else d.mem.read a := by
  induction t generalizing d n with
  | nil => exact ⟨hwf, fun a => (if_neg (by simp)).symm⟩
  | cons ch rest ih =>
    rw [List.length_cons] at hfits
    have hnext : d.react c (dataWord ch) = { d with mem := d.mem.write d.ac ch, ac := d.ac + 1 } := rfl
    have hac' : (d.react c (dataWord ch)).ac.toNat = n + 1 := by
      rw [hnext, ← hac]
      exact BitVec.toNat_add_of_lt (by simp; omega)
    obtain ⟨hwf', hread⟩ := ih (react_wf c _ hwf) hac' (by omega)
    refine ⟨hwf', fun a => (hread a).trans ?_⟩
    rw [hnext, Memory.read_write hwf, hac, List.length_cons]
    obtain hlt | rfl | hgt := Nat.lt_trichotomy a n
    · rw [if_neg (by omega), if_neg (by omega), if_neg (by omega)]
    · rw [if_neg (by omega), if_pos rfl, if_pos (by omega), Nat.sub_self, List.getD_cons_zero]
    · obtain ⟨k, rfl⟩ := Nat.exists_eq_add_of_lt hgt
      have hsub : n + k + 1 - n = k + 1 := by omega
      have hsub' : n + k + 1 - (n + 1) = k := by omega
      rw [hsub, hsub', List.getD_cons_succ]
      by_cases hk : k < rest.length
      · rw [if_pos (by omega), if_pos (by omega)]
      · rw [if_neg (by omega), if_neg (by omega), if_neg (by omega)]

end Display

theorem observable_iff {c : Config} : observable c = true ↔ c.cmdSetAddr = 0x80#8 ∧ c.cmdClear.getLsbD 7 = false := by
  simp [observable]

/-- A set-address word loads the counter: no clear has its top bit. -/
theorem Display.react_setAddrWord {c : Config} (hobs : observable c = true) (a : DdAddr) (d : Display) :
    d.react c (setAddrWord c a) = { d with ac := a } := by
  obtain ⟨hset, hclear⟩ := observable_iff.mp hobs
  obtain ⟨htop, haddr⟩ : (c.cmdSetAddr ||| a.setWidth 8).getLsbD 7 = true ∧
      (c.cmdSetAddr ||| a.setWidth 8).setWidth 7 = a := by
    rw [hset]; revert a; decide
  have hne : c.cmdSetAddr ||| a.setWidth 8 ≠ c.cmdClear := fun hb =>
    Bool.false_ne_true (hclear.symm.trans (hb ▸ htop))
  have hreact := react_address (c := c) (w := setAddrWord c a) d rfl hne htop
  rw [hreact]
  exact congrArg (fun x => { d with ac := x }) haddr

theorem dirLabel_length (di : Direction) : (dirLabel di).length = 7 := by
  cases di <;> rfl

theorem modeLabel_length (mo : StepMode) : (modeLabel mo).length = 9 := by
  cases mo <;> rfl

/-- Sent from any content, the render script leaves the two labels and spaces. -/
theorem Display.shows_reactAll_renderScript {c : Config} (hobs : observable c = true) (di : Direction) (mo : StepMode)
    (d : Display) : (d.reactAll c (renderScript c di mo)).shows di mo := by
  have hclear : d.react c (cmdWord c.cmdClear) = { d with mem := [], ac := 0 } := react_clear d rfl rfl
  rw [renderScript_eq, List.cons_append, reactAll_cons, hclear, List.cons_append, reactAll_cons,
    react_setAddrWord hobs, reactAll_append, reactAll_cons, react_setAddrWord hobs]
  obtain ⟨hwf, hdir⟩ := reactAll_putsWords c (dirLabel di) (d := { d with mem := [], ac := 0x00#7 }) (n := 0x00)
    Memory.nil_wf rfl (by rw [dirLabel_length]; decide)
  obtain ⟨-, hmode⟩ := reactAll_putsWords c (modeLabel mo)
    (d := { Display.reactAll c (putsWords (dirLabel di)) { d with mem := [], ac := 0x00#7 } with ac := 0x40#7 })
    (n := 0x40) hwf rfl (by rw [modeLabel_length]; decide)
  intro a _
  rw [hmode, hdir, dirLabel_length, modeLabel_length]
  by_cases hrow0 : a ≤ 0x06
  · rw [if_neg (by omega), if_pos (by omega), if_pos hrow0]
    rfl
  rw [if_neg hrow0]
  by_cases hrow1 : 0x40 ≤ a ∧ a ≤ 0x48
  · rw [if_pos (by omega), if_pos hrow1]
  · rw [if_neg (by omega), if_neg (by omega), if_neg hrow1]
    rfl

/-- Settles O43: one reaction for each kind of word, and the render script by its clear and its two texts. -/
theorem renderScriptShowsLabels : Obligations.RenderScriptShowsLabels := by
  refine ⟨?_, fun c di mo d hobs => Display.shows_reactAll_renderScript hobs di mo d⟩
  intro c n w d hwf hsync e x
  refine ⟨Display.complete_lastWord c n w d, Display.complete_half c n w d,
    (Display.complete_desync c n w d).trans hsync, fun hread => ?_,
    fun hwrite => Display.complete_write c n hsync hwrite, fun hrs => ?_, fun hrs hb => ?_, fun hrs hb htop => ?_, fun hrs hb htop => ?_⟩
  · simp [e, Display.complete_read c n hsync hread]
  · rw [Display.react_data d hrs]
    exact ⟨Memory.read_write hwf d.ac x.byte, BitVec.toNat_add d.ac 1⟩
  · rw [Display.react_clear d hrs hb]
    exact ⟨Memory.read_nil, rfl⟩
  · rw [Display.react_address d hrs hb htop]
    have hlow : ∀ b : Byte, b.getLsbD 7 = true → (b.setWidth 7).toNat = b.toNat - 128 := by decide
    exact ⟨rfl, hlow x.byte htop⟩
  · rw [Display.react_other d hrs hb htop]
    exact ⟨rfl, rfl⟩

/-! ## Content that some transactions have put in place (45 R257) -/

/-- The words `ws`, sent from some content, leave the content and the counter of `x`. -/
def Display.StandsAfter (c : Config) (ws : List TxWord) (x : Display) : Prop :=
  ∃ d : Display, d.reactAll c ws = { d with mem := x.mem, ac := x.ac }

namespace Display.StandsAfter
variable {c : Config} {ws : List TxWord} {x y : Display}

theorem nil : StandsAfter c [] x := ⟨x, rfl⟩

theorem congr (h : StandsAfter c ws x) (hmem : y.mem = x.mem) (hac : y.ac = x.ac) : StandsAfter c ws y := by
  obtain ⟨d, hd⟩ := h
  exact ⟨d, by rw [hmem, hac, hd]⟩

/-- One word more, and the observer's reaction to it. -/
theorem concat {w : TxWord} (h : StandsAfter c ws x) (hmem : y.mem = (x.react c w).mem)
    (hac : y.ac = (x.react c w).ac) : StandsAfter c (ws ++ [w]) y := by
  obtain ⟨d, hd⟩ := h
  refine ⟨d, ?_⟩
  rw [reactAll_append, hd, hmem, hac]
  exact react_congr c w (d := x) rfl rfl

/-- The whole render script has put the labels in place. -/
theorem shows {di : Direction} {mo : StepMode} (h : StandsAfter c (renderScript c di mo) x)
    (hobs : observable c = true) : x.shows di mo := by
  obtain ⟨d, hd⟩ := h
  have hshows := shows_reactAll_renderScript hobs di mo d
  rw [hd] at hshows
  exact hshows

end Display.StandsAfter

/-! ## How far the gate's script has arrived -/

/-- The last strobe of the transaction in flight has fallen (43 R202). -/
def WordArrived (s : State) : Prop :=
  s.eng.state = EngCode.dDone ∨ (s.eng.state = EngCode.dElo ∧ (s.cfg.busWidth = .four → s.eng.nib = true))

section Arrived
variable {s : State}

theorem wordsShown_of_arrived (hgate : s.gate.state = GateCode.gWait) (h : WordArrived s) :
    wordsShown s = s.gate.rPtr.toNat + 1 :=
  if_pos ⟨hgate, h⟩

theorem wordsShown_of_not_arrived (h : ¬(s.gate.state = GateCode.gWait ∧ WordArrived s)) :
    wordsShown s = s.gate.rPtr.toNat :=
  if_neg h

theorem wordsShown_of_not_wait (h : s.gate.state ≠ GateCode.gWait) : wordsShown s = s.gate.rPtr.toNat :=
  wordsShown_of_not_arrived fun hw => h hw.1

theorem WordFalls.not_arrived (h : WordFalls s) : ¬WordArrived s := by
  simp [WordArrived, h.1]

/-- While a transaction runs, its word has arrived in the next cycle if it has now or if its last strobe falls now. -/
theorem CoreInv.wordArrived_iff (h : CoreInv s) (i : Inputs) (hbusy : s.eng.state ≠ EngCode.dIdle)
    (hend : s.eng.state ≠ EngCode.dDone) : WordArrived (cycleOut i s) ↔ WordArrived s ∨ WordFalls s := by
  have heng' := h.cycleOut_engine i
  simp only [WordArrived, WordFalls, heng', cycleOut_cfg]
  obtain heng | heng | heng | heng | heng | heng := h.controlInv.eng_cases
  · exact absurd heng hbusy
  · simp [engOut_setup heng, heng]
  · simp [engOut_eon heng, heng]
  · rw [engOut_ehi heng]
    split_ifs with hdone <;> simp [heng, hdone]
  · rw [engOut_elo heng]
    simp only [nph_eq_two_iff]
    split_ifs with hdone hfirst <;> simp_all
  · exact absurd heng hend

end Arrived

/-! ## The contract over one cycle -/

section Contract
variable {s : State} (h : CoreInv s) (i : Inputs)
include h

theorem CoreInv.desync_cycleOut : (cycleOut i s).display.desync = s.display.desync := by
  by_cases hfalls : WordFalls s
  · rw [h.display_of_wordFalls i hfalls, Display.complete_desync]
  · obtain ⟨half, hdisplay⟩ := h.display_of_not_wordFalls i hfalls
    rw [hdisplay]

/-- While no transaction is in flight the display stays as it is. -/
theorem CoreInv.display_of_engIdle (heng : s.eng.state = EngCode.dIdle) : (cycleOut i s).display = s.display :=
  h.display_of_noStrobe i (by simp [heng])

/-- While the gate renders, the display stands where the words sent so far have put it. -/
def Rendering (s : State) : Prop :=
  s.display.StandsAfter s.cfg ((renderScript s.cfg s.seq.snapDir s.seq.snapMode).take (wordsShown s))

/-- A cycle in which no word arrives keeps that. -/
theorem CoreInv.rendering_of_same (hgate : s.gate.state ≠ GateCode.gIdle)
    (hdisplay : ∃ half, (cycleOut i s).display = { s.display with half := half })
    (hshown : wordsShown (cycleOut i s) = wordsShown s) (hr : Rendering s) : Rendering (cycleOut i s) := by
  obtain ⟨hdir, hmode⟩ := h.handshake.seqOut_snapshot hgate
  obtain ⟨half, hdisplay⟩ := hdisplay
  rw [Rendering, cycleOut_cfg, cycleOut_seq, hdir, hmode, hshown]
  exact hr.congr (by rw [hdisplay]) (by rw [hdisplay])

/-- A request begins a transaction, of which nothing has arrived. -/
theorem CoreInv.rendering_of_issue (hgate : s.gate.state = GateCode.gIssue) (hr : Rendering s) :
    Rendering (cycleOut i s) := by
  have heng : s.eng.state = EngCode.dIdle := h.handshake.engIdle_of_gateRuns (by simp [hgate]) (by simp [hgate])
  have htaken : (cycleOut i s).eng = s.eng.accept (txWord s) :=
    (h.cycleOut_engine i).trans (h.controlInv.engOut_of_txStart (txStart_iff.mpr (.inr hgate)))
  have hnone : ¬WordArrived (cycleOut i s) := by rw [WordArrived, htaken]; simp
  refine h.rendering_of_same i (by simp [hgate]) ⟨s.display.half, h.display_of_engIdle i heng⟩ ?_ hr
  rw [wordsShown_of_not_arrived fun hw => hnone hw.2, wordsShown_of_not_wait (by simp [hgate]), cycleOut_gate,
    gateOut_issue hgate]

/-- The word of the script at a legal pointer is the next one to arrive. -/
theorem CoreInv.take_succ_renderScript (di : Direction) (mo : StepMode) :
    (renderScript s.cfg di mo).take (s.gate.rPtr.toNat + 1) =
      (renderScript s.cfg di mo).take s.gate.rPtr.toNat ++ [renderWordAt s.cfg di mo s.gate.rPtr] := by
  rw [renderWordAt_of_le s.cfg di mo s.gate.rPtr h.legal.rPtr]
  exact List.take_succ_eq_append_getElem _

/-- The last strobe of a word of the script makes the observer react to it. -/
theorem CoreInv.rendering_of_wordFalls (hgate : s.gate.state = GateCode.gWait) (hfalls : WordFalls s)
    (hsync : s.display.desync = false) (hr : Rendering s) : Rendering (cycleOut i s) := by
  have hend : txDone s = false := by simp [txDone, hfalls.1]
  have hgate' : gateOut s = s.gate := by simp [gateOut_wait hgate, hend]
  obtain ⟨hdir, hmode⟩ := h.handshake.seqOut_snapshot (by simp [hgate])
  have harrived : WordArrived (cycleOut i s) :=
    (h.wordArrived_iff i (by simp [hfalls.1]) (by simp [hfalls.1])).mpr (.inr hfalls)
  have hbefore : wordsShown s = s.gate.rPtr.toNat := wordsShown_of_not_arrived fun hw => hfalls.not_arrived hw.2
  have hafter : wordsShown (cycleOut i s) = s.gate.rPtr.toNat + 1 := by
    rw [wordsShown_of_arrived (by rw [cycleOut_gate, hgate', hgate]) harrived, cycleOut_gate, hgate']
  obtain ⟨hmem, hac⟩ := Display.complete_write s.cfg s.cycle (d := { s.display with half := none }) hsync
    (busWord_rw (flightWord s))
  have hreact := Display.react_congr s.cfg (gateWord s) (d := s.display) (e := { s.display with half := none }) rfl rfl
  rw [← h.display_of_wordFalls i hfalls, txOfBus_busWord, h.flight.ofGate hgate, hreact] at hmem hac
  rw [Rendering, hbefore] at hr
  rw [Rendering, cycleOut_cfg, cycleOut_seq, hdir, hmode, hafter, h.take_succ_renderScript]
  exact hr.concat hmem hac

/-- While the gate waits, a word arrives or nothing does. -/
theorem CoreInv.rendering_of_wait (hgate : s.gate.state = GateCode.gWait) (hend : s.eng.state ≠ EngCode.dDone)
    (hsync : s.display.desync = false) (hr : Rendering s) : Rendering (cycleOut i s) := by
  by_cases hfalls : WordFalls s
  · exact h.rendering_of_wordFalls i hgate hfalls hsync hr
  have hruns : s.gate.state ≠ GateCode.gIdle := by simp [hgate]
  have hbusy : s.eng.state ≠ EngCode.dIdle :=
    (h.handshake.gateWaits (h.handshake.ready_of_gateRuns hruns)).mpr hgate
  have hgate' : (cycleOut i s).gate = s.gate := by simp [gateOut_wait hgate, txDone, hend]
  have harrived : WordArrived (cycleOut i s) ↔ WordArrived s := by simp [h.wordArrived_iff i hbusy hend, hfalls]
  refine h.rendering_of_same i hruns (h.display_of_not_wordFalls i hfalls) ?_ hr
  by_cases hnow : WordArrived s
  · rw [wordsShown_of_arrived hgate hnow, wordsShown_of_arrived (hgate' ▸ hgate) (harrived.mpr hnow), hgate']
  · rw [wordsShown_of_not_arrived fun hw => hnow hw.2, wordsShown_of_not_arrived fun hw => hnow (harrived.mp hw.2),
      hgate']

/-- When a transaction before the last reports its end, its word has arrived and the next is asked for. -/
theorem CoreInv.rendering_of_next (hgate : s.gate.state = GateCode.gWait) (hend : s.eng.state = EngCode.dDone)
    (hmore : s.gate.rPtr.toNat ≠ renderLast) (hr : Rendering s) : Rendering (cycleOut i s) := by
  have hgate' : (cycleOut i s).gate = { s.gate with rPtr := s.gate.rPtr + 1, state := GateCode.gIssue } := by
    rw [cycleOut_gate, gateOut_wait hgate, if_pos (txDone_iff.mpr hend), if_neg hmore]
  have hptr : (s.gate.rPtr + 1).toNat = s.gate.rPtr.toNat + 1 := by
    have hle := h.legal.rPtr
    exact BitVec.toNat_add_of_lt (by simp only [renderLast] at hle; simp; omega)
  refine h.rendering_of_same i (by simp [hgate]) ⟨s.display.half, h.display_of_noStrobe i (by simp [hend])⟩ ?_ hr
  rw [wordsShown_of_not_wait (by rw [hgate']; simp), wordsShown_of_arrived hgate (.inl hend), hgate', hptr]

/-- When the last transaction reports its end, the labels are in place. -/
theorem CoreInv.shows_of_last (hgate : s.gate.state = GateCode.gWait) (hend : s.eng.state = EngCode.dDone)
    (hlast : s.gate.rPtr.toNat = renderLast) (hobs : observable s.cfg = true) (hr : Rendering s) :
    (cycleOut i s).display.shows s.seq.snapDir s.seq.snapMode := by
  rw [Rendering, wordsShown_of_arrived hgate (.inl hend), hlast,
    List.take_of_length_le (i := renderLast + 1) (renderScript_length _ _ _).le] at hr
  rw [h.display_of_noStrobe i (by simp [hend])]
  exact hr.shows hobs

variable (hc : DisplayContract s)
include hc

/-- Once something has been rendered, the engine is idle whenever the gate neither asks nor waits. -/
theorem CoreInv.display_of_rendered (hvalid : s.gate.lastValid = true)
    (hgate : s.gate.state = GateCode.gIdle ∨ s.gate.state = GateCode.gDone) :
    (cycleOut i s).display = s.display := by
  have hready : s.ini.state = InitCode.iReady := by
    by_contra hini
    exact Bool.false_ne_true ((hc.nothingYet hini).symm.trans hvalid)
  have hwait : s.gate.state ≠ GateCode.gWait := by obtain hg | hg := hgate <;> simp [hg]
  exact h.display_of_engIdle i (h.handshake.engIdle_of_ready hready hwait)

theorem CoreInv.nothingYet_cycleOut (hini : (iniOut s).state ≠ InitCode.iReady) : (gateOut s).lastValid = false := by
  have hini' : s.ini.state ≠ InitCode.iReady := fun hready => hini ((iniOut_ready hready).symm ▸ hready)
  have hseq : s.seq.state = SeqCode.sInit := h.handshake.initFirst hini'
  rw [gateOut_idle (h.handshake.gateIdle_of_seq (by simp [hseq])), if_neg (by simp [gateStart, hseq])]
  exact hc.nothingYet hini'

/-- Every cycle without a reset keeps the contract: the cases are the four states of the gate. -/
theorem CoreInv.contract_cycleOut : DisplayContract (cycleOut i s) := by
  have hcodes : ∀ g : BitVec 2, g = GateCode.gIdle ∨ g = GateCode.gIssue ∨ g = GateCode.gWait ∨ g = GateCode.gDone := by
    decide
  refine ⟨h.nothingYet_cycleOut hc, fun hobs hsync hrender => ?_, fun hobs hsync hvalid hstill => ?_⟩
  · rw [h.desync_cycleOut] at hsync
    rw [cycleOut_gate] at hrender
    show Rendering (cycleOut i s)
    obtain hgate | hgate | hgate | hgate := hcodes s.gate.state
    · have hstarts : gateOut s = { s.gate with rPtr := 0, state := GateCode.gIssue } := by
        rw [gateOut_idle hgate] at hrender ⊢
        split_ifs at hrender ⊢
        · rfl
        all_goals simp [hgate] at hrender
      have hshown : wordsShown (cycleOut i s) = 0 := by
        rw [wordsShown_of_not_wait] <;> simp [hstarts]
      rw [Rendering, hshown, List.take_zero]
      exact .nil
    · exact h.rendering_of_issue i hgate (hc.rendering hobs hsync (.inl hgate))
    · have hr := hc.rendering hobs hsync (.inr hgate)
      by_cases hend : s.eng.state = EngCode.dDone
      · refine h.rendering_of_next i hgate hend (fun hlast => ?_) hr
        simp [gateOut_wait hgate, txDone, hend, hlast] at hrender
      · exact h.rendering_of_wait i hgate hend hsync hr
    · simp [gateOut_done hgate] at hrender
  · rw [h.desync_cycleOut] at hsync
    rw [cycleOut_gate] at hvalid hstill ⊢
    obtain hgate | hgate | hgate | hgate := hcodes s.gate.state
    · rw [gateOut_idle hgate] at hvalid hstill ⊢
      split_ifs at hvalid hstill ⊢
      · simp at hstill
      all_goals
        rw [h.display_of_rendered i hc hvalid (.inl hgate)]
        exact hc.rendered hobs hsync hvalid (.inl hgate)
    · simp [gateOut_issue hgate] at hstill
    · rw [gateOut_wait hgate] at hstill ⊢
      split_ifs at hstill ⊢ with hend hlast
      · exact h.shows_of_last i hgate (txDone_iff.mp hend) hlast hobs (hc.rendering hobs hsync (.inr hgate))
      all_goals simp [hgate] at hstill
    · rw [gateOut_done hgate] at hvalid ⊢
      rw [h.display_of_rendered i hc hvalid (.inr hgate)]
      exact hc.rendered hobs hsync hvalid (.inr hgate)

end Contract

/-! ## The contract over a reset -/

theorem contract_of_reset {s : State} (hgate : s.gate = .reset) : DisplayContract s where
  nothingYet _ := by rw [hgate]; rfl
  rendering _ _ h := by rw [hgate] at h; simp [RefreshGate.reset] at h
  rendered _ _ h := by rw [hgate] at h; cases h

/-- Settles O45. -/
theorem displayContractAtReset : Obligations.DisplayContractAtReset :=
  fun _ => ⟨contract_of_reset rfl, fun _ hgate => gateChanged_iff.mpr (.inl (by rw [hgate]; rfl))⟩

theorem Display.onReset_desync (n : Nat) (d : Display) : (d.onReset n).desync = (d.half.isSome || d.desync) := by
  unfold onReset
  cases d.half <;> rfl

@[simp] theorem Display.observe_desync (c : Config) (n : Nat) (e e' : Engine) (d : Display) :
    (d.observe c n e e').desync = d.desync := by
  unfold observe
  split_ifs <;> simp

/-- After the pins have fallen, the receiver is between two phases if it was and no strobe was high, or if a first
strobe was. -/
theorem CoreInv.half_observe_reset {s : State} (h : CoreInv s) (n : Nat) :
    (s.display.observe s.cfg n s.eng .reset).half.isSome = true ↔ s.cfg.busWidth = .four ∧
      ((s.eng.lcdE = false ∧ s.display.half.isSome = true) ∨ (s.eng.lcdE = true ∧ s.display.half = none)) := by
  have hfalls : Engine.reset.lcdE = false := rfl
  rw [Display.observe, hfalls, Bool.not_false, Bool.and_true]
  cases hw : s.cfg.busWidth with
  | eight =>
    have hhalf : s.display.half = none := by rw [h.receiver, hw]; rfl
    split_ifs <;> simp [Display.strobe, hw, hhalf]
  | four => cases hE : s.eng.lcdE <;> cases hhalf : s.display.half <;> simp [Display.strobe, hw, hhalf]

/-- A reset loses the content exactly if it leaves the receiver between two phases. -/
theorem CoreInv.desync_resetCycle {s : State} (h : CoreInv s) : (resetCycle s).display.desync = true ↔
    s.display.desync = true ∨ s.cfg.busWidth = .four ∧
      ((s.eng.lcdE = false ∧ s.display.half.isSome = true) ∨ (s.eng.lcdE = true ∧ s.display.half = none)) := by
  show (Display.onReset s.cycle (s.display.observe s.cfg s.cycle s.eng .reset)).desync = true ↔ _
  rw [Display.onReset_desync, Bool.or_eq_true, or_comm, Display.observe_desync, h.half_observe_reset]

/-- Settles O44. -/
theorem displayContractKept : Obligations.DisplayContractKept := by
  intro s t h ht
  obtain ⟨-, ⟨hr, rfl⟩ | ⟨hr, rfl⟩⟩ := step_eq_next ht
  · exact ⟨fun _ => contract_of_reset rfl, fun hrun => absurd (hr.symm.trans hrun) (by decide),
      fun _ => h.desync_resetCycle⟩
  · exact ⟨h.contract_cycleOut _, fun _ => h.desync_cycleOut _, fun hreset => absurd (hr.symm.trans hreset) (by decide)⟩

end Sys2Proof.Machine
end

section
/-! PROOFS. The time of a transaction: cycle by cycle at `PRESCALE = 1`, and within a bound at any `PRESCALE`
(spec/43_display_bus_multiplexer.md R206, spec/40_tick_timer.md R127, spec/70_reset_and_hazards.md R332). -/

namespace Sys2Proof.Machine

/-! ## The engine from state to state (43 R199 to R202) -/

namespace Transmits
variable {r t : State} {nib : Bool}

theorem setup_next (h : Transmits r EngCode.dSetup nib t) : Transmits r EngCode.dEon nib (nextCycle t) :=
  h.next (by decide) (by decide) (by rw [engOut_setup h.state]) (by rw [engOut_setup h.state]; exact h.nib)

theorem eon_next (h : Transmits r EngCode.dEon nib t) : Transmits r EngCode.dEhi nib (nextCycle t) :=
  h.next (by decide) (by decide) (by rw [engOut_eon h.state]) (by rw [engOut_eon h.state]; exact h.nib)

theorem ehi_next (h : Transmits r EngCode.dEhi nib t) (hdone : dlyDone t = true) :
    Transmits r EngCode.dElo nib (nextCycle t) := by
  refine h.next (by decide) (by decide) ?_ ?_ <;> rw [engOut_ehi h.state, if_pos hdone]
  exact h.nib

/-- After the low hold of the first of two phases the second begins. -/
theorem elo_next_first (h : Transmits r EngCode.dElo false t) (hdone : dlyDone t = true)
    (hw : r.cfg.busWidth = .four) : Transmits r EngCode.dSetup true (nextCycle t) := by
  have hfirst : t.cfg.busWidth.nph = 2 ∧ t.eng.nib = false := ⟨nph_eq_two_iff.mpr (h.cfg ▸ hw), h.nib⟩
  refine h.next (by decide) (by decide) ?_ ?_ <;> rw [engOut_elo h.state, if_pos hdone, if_pos hfirst]

/-- After the low hold of the last phase the transaction ends. -/
theorem elo_next_last (h : Transmits r EngCode.dElo nib t) (hdone : dlyDone t = true)
    (hlast : r.cfg.busWidth = .four → nib = true) : Transmits r EngCode.dDone nib (nextCycle t) := by
  have hnot : ¬(t.cfg.busWidth.nph = 2 ∧ t.eng.nib = false) := by
    rw [nph_eq_two_iff, h.cfg, h.nib]
    rintro ⟨hw, rfl⟩
    exact Bool.false_ne_true (hlast hw)
  refine h.next (by decide) (by decide) ?_ ?_ <;> rw [engOut_elo h.state, if_pos hdone, if_neg hnot]
  exact h.nib

end Transmits

theorem ControlInv.sameMachines_of_wait {s : State} (h : ControlInv s) (hbusy : s.timer.dlyBusy = true)
    (hrun : dlyDone s = false) : SameMachines s (nextCycle s) := by
  obtain ⟨hseq, hini, hgate, heng⟩ := h.machines_wait hbusy hrun
  exact ⟨rfl, hseq, hini, hgate, heng⟩

/-- A request taken in this cycle begins the first phase in the next. -/
theorem ControlInv.transmits_of_txStart {s : State} (h : ControlInv s) (htx : txStart s = true) :
    Transmits (nextCycle s) EngCode.dSetup false (nextCycle s) := by
  refine ⟨h.next, rfl, ⟨rfl, rfl, rfl⟩, ?_, ?_⟩ <;> rw [h.nextCycle_eng, h.engOut_of_txStart htx] <;> rfl

/-! ## Cycle by cycle at `PRESCALE = 1` (43 R206) -/

theorem phaseCode_ehi {n o : Nat} (h2 : 2 ≤ o) (ho : o < n + 3) : phaseCode n o = EngCode.dEhi := by
  rw [phaseCode, if_neg (by omega), if_neg (by omega), if_pos ho]

theorem phaseCode_elo {n o : Nat} (ho : n + 3 ≤ o) : phaseCode n o = EngCode.dElo := by
  rw [phaseCode, if_neg (by omega), if_neg (by omega), if_neg (by omega)]

theorem phaseCode_eq_ehi_iff {n o : Nat} : phaseCode n o = EngCode.dEhi ↔ 2 ≤ o ∧ o < n + 3 := by
  refine ⟨fun h => ?_, fun h => phaseCode_ehi h.1 h.2⟩
  unfold phaseCode at h
  split_ifs at h
  · simp at h
  · simp at h
  · omega
  · simp at h

theorem phaseCode_busy (n o : Nat) : phaseCode n o ≠ EngCode.dIdle := by
  unfold phaseCode
  split_ifs <;> decide

/-- A strobe hold starts with a cleared counter. -/
theorem tickCount_of_dbmDlyStart {t : State} (hstart : dbmDlyStart t = true) : (timerOut t).tickCount.toNat = 0 := by
  rw [(timerOut_of_start (by simp [dlyStart, hstart])).1]
  rfl

/-- `t` is offset `o` of the phase `nib` of the transaction whose first phase begins in `r`; in a hold the tick counter
tells how far it is. -/
structure AtOffset (r : State) (nib : Bool) (o : Nat) (t : State) : Prop where
  inv : CoreInv t
  engine : Transmits r (phaseCode r.cfg.settleTicks.toNat o) nib t
  word : flightWord t = flightWord r
  count : 2 ≤ o → t.timer.tickCount.toNat =
    if o < r.cfg.settleTicks.toNat + 3 then o - 2 else o - (r.cfg.settleTicks.toNat + 3)

namespace AtOffset
variable {r t : State} {nib nib' : Bool} {o o' : Nat} (h : AtOffset r nib o t)
include h

/-- The step to the next offset, given the engine's and the counter's. -/
theorem next_of (hengine : Transmits r (phaseCode r.cfg.settleTicks.toNat o') nib' (nextCycle t))
    (hcount : 2 ≤ o' → (timerOut t).tickCount.toNat =
      if o' < r.cfg.settleTicks.toNat + 3 then o' - 2 else o' - (r.cfg.settleTicks.toNat + 3)) :
    AtOffset r nib' o' (nextCycle t) where
  inv := h.inv.after_cycle _
  engine := hengine
  word := (h.inv.flightWord_of_busy _ (by rw [h.engine.state]; exact phaseCode_busy _ _)).trans h.word
  count := hcount

/-- In a hold the delay runs with `SETTLE_TICKS` as its target. -/
theorem holding (h2 : 2 ≤ o) : t.timer.dlyBusy = true ∧ t.timer.dlyTarget = r.cfg.settleTicks := by
  have heng : t.eng.state = EngCode.dEhi ∨ t.eng.state = EngCode.dElo := by
    rw [h.engine.state]
    obtain ho | ho := Nat.lt_or_ge o (r.cfg.settleTicks.toNat + 3)
    · exact .inl (phaseCode_ehi h2 ho)
    · exact .inr (phaseCode_elo ho)
  refine ⟨h.inv.delay.busy.mpr ?_, by rw [h.inv.delay.hold heng, h.engine.cfg]⟩
  exact heng.elim .inl fun helo => .inr (.inl helo)

theorem dlyDone_iff (h2 : 2 ≤ o) : dlyDone t = true ↔ r.cfg.settleTicks.toNat ≤
    if o < r.cfg.settleTicks.toNat + 3 then o - 2 else o - (r.cfg.settleTicks.toNat + 3) := by
  obtain ⟨hbusy, htarget⟩ := h.holding h2
  rw [Machine.dlyDone_iff, htarget, h.count h2]
  exact and_iff_right hbusy

/-- A cycle inside a hold counts one tick. -/
theorem next_of_wait (hp : r.cfg.prescale = 1) (h2 : 2 ≤ o) (hrun : dlyDone t = false)
    (hcode : phaseCode r.cfg.settleTicks.toNat (o + 1) = phaseCode r.cfg.settleTicks.toNat o)
    (hside : o + 1 < r.cfg.settleTicks.toNat + 3 ↔ o < r.cfg.settleTicks.toNat + 3) :
    AtOffset r nib (o + 1) (nextCycle t) := by
  obtain ⟨hbusy, -⟩ := h.holding h2
  have hinv := h.inv.controlInv
  have htick : tickEvent t = true := by
    have hpre := h.inv.legal.preCnt
    rw [h.engine.cfg, hp] at hpre
    rw [tickEvent_iff, h.engine.cfg, hp]
    omega
  obtain ⟨-, -, hcount⟩ := hinv.timerOut_of_wait hbusy hrun
  refine h.next_of (hcode ▸ h.engine.of_sameMachines hinv.next (hinv.sameMachines_of_wait hbusy hrun)) fun _ => ?_
  rw [hcount, if_pos htick, h.count h2]
  simp only [hside]
  split_ifs <;> omega

/-- One cycle further in the same phase: setup, strobe on, the two holds, and the change between them. -/
theorem next (hp : r.cfg.prescale = 1) (ho : o + 1 < 2 * r.cfg.settleTicks.toNat + 4) :
    AtOffset r nib (o + 1) (nextCycle t) := by
  have hengine := h.engine
  have hehi : ∀ k, 2 ≤ k → k < r.cfg.settleTicks.toNat + 3 →
      phaseCode r.cfg.settleTicks.toNat k = EngCode.dEhi := fun _ => phaseCode_ehi
  have helo : ∀ k, r.cfg.settleTicks.toNat + 3 ≤ k → phaseCode r.cfg.settleTicks.toNat k = EngCode.dElo :=
    fun _ => phaseCode_elo
  obtain rfl | rfl | h2 : o = 0 ∨ o = 1 ∨ 2 ≤ o := by omega
  · exact h.next_of hengine.setup_next (by omega)
  · refine h.next_of (hehi 2 le_rfl (by omega) ▸ hengine.eon_next) fun _ => ?_
    rw [tickCount_of_dbmDlyStart (dbmDlyStart_iff.mpr (.inl hengine.state)), if_pos (by omega)]
  obtain hlt | rfl | hgt := Nat.lt_trichotomy o (r.cfg.settleTicks.toNat + 2)
  · refine h.next_of_wait hp h2 (eq_false_of_ne_true fun hdone => ?_) ?_ (by omega)
    · rw [h.dlyDone_iff h2, if_pos (by omega)] at hdone
      omega
    · rw [hehi o h2 (by omega), hehi (o + 1) (by omega) (by omega)]
  · have hdone : dlyDone t = true := by
      rw [h.dlyDone_iff h2, if_pos (by omega)]
      omega
    rw [hehi _ h2 (by omega)] at hengine
    refine h.next_of (helo (_ + 2 + 1) le_rfl ▸ hengine.ehi_next hdone) fun _ => ?_
    rw [tickCount_of_dbmDlyStart (dbmDlyStart_iff.mpr (.inr ⟨hengine.state, hdone⟩)), if_neg (by omega), Nat.sub_self]
  · refine h.next_of_wait hp h2 (eq_false_of_ne_true fun hdone => ?_) ?_ (by omega)
    · rw [h.dlyDone_iff h2, if_neg (by omega)] at hdone
      omega
    · rw [helo o (by omega), helo (o + 1) (by omega)]

/-- The last cycle of a phase is the end of its low hold. -/
theorem lowHoldDone (ho : o = 2 * r.cfg.settleTicks.toNat + 3) :
    Transmits r EngCode.dElo nib t ∧ dlyDone t = true := by
  refine ⟨phaseCode_elo (n := r.cfg.settleTicks.toNat) (o := o) (by omega) ▸ h.engine, ?_⟩
  rw [h.dlyDone_iff (by omega), if_neg (by omega)]
  omega

end AtOffset

namespace AtOffset
variable {r t : State} {nib : Bool}

theorem iterate (h : AtOffset r nib 0 t) (hp : r.cfg.prescale = 1) {o : Nat}
    (ho : o < 2 * r.cfg.settleTicks.toNat + 4) : AtOffset r nib o (nextCycle^[o] t) := by
  induction o with
  | zero => exact h
  | succ o ih =>
    rw [Function.iterate_succ_apply']
    exact (ih (by omega)).next hp ho

theorem secondPhase (h : AtOffset r false 0 t) (hp : r.cfg.prescale = 1) (hw : r.cfg.busWidth = .four) :
    AtOffset r true 0 (nextCycle^[2 * r.cfg.settleTicks.toNat + 4] t) := by
  have hlast := h.iterate hp (o := 2 * r.cfg.settleTicks.toNat + 3) (by omega)
  obtain ⟨helo, hdone⟩ := hlast.lowHoldDone rfl
  rw [Function.iterate_succ_apply']
  exact hlast.next_of (helo.elo_next_first hdone hw) (by omega)

theorem txDone (h : AtOffset r nib 0 t) (hp : r.cfg.prescale = 1) (hlast : r.cfg.busWidth = .four → nib = true) :
    txDone (nextCycle^[2 * r.cfg.settleTicks.toNat + 4] t) = true := by
  obtain ⟨helo, hdone⟩ := (h.iterate hp (o := 2 * r.cfg.settleTicks.toNat + 3) (by omega)).lowHoldDone rfl
  rw [Function.iterate_succ_apply', txDone_iff]
  exact (helo.elo_next_last hdone hlast).state

end AtOffset

theorem CoreInv.atOffset_of_txStart {s : State} (h : CoreInv s) (htx : txStart s = true) :
    AtOffset (nextCycle s) false 0 (nextCycle s) :=
  ⟨h.after_cycle _, h.controlInv.transmits_of_txStart htx, rfl, by omega⟩

/-- Phase `p` of a transaction accepted in this cycle begins after `1 + p (2 SETTLE_TICKS + 4)` cycles. -/
theorem CoreInv.atOffset_of_phase {s : State} (h : CoreInv s) (hp : s.cfg.prescale = 1) (htx : txStart s = true)
    {p : Nat} (hpn : p < s.cfg.busWidth.nph) : ∃ nib,
    AtOffset (nextCycle s) nib 0 (nextCycle^[1 + p * (2 * s.cfg.settleTicks.toNat + 4)] s) ∧
      (p + 1 = s.cfg.busWidth.nph → s.cfg.busWidth = .four → nib = true) := by
  have hfirst := h.atOffset_of_txStart htx
  have hnph := nph_le_two s.cfg.busWidth
  obtain rfl | rfl : p = 0 ∨ p = 1 := by omega
  · refine ⟨false, by simpa using hfirst, fun hlast hw => ?_⟩
    rw [hw] at hlast
    cases hlast
  · have hw : s.cfg.busWidth = .four := nph_eq_two_iff.mp (by omega)
    refine ⟨true, ?_, fun _ _ => rfl⟩
    rw [Nat.one_mul, Nat.add_comm, Function.iterate_add_apply]
    exact hfirst.secondPhase hp hw

end Sys2Proof.Machine

namespace Sys2Proof.TransactionTiming
open Machine

/-- Settles O37: both phases pass through the same offsets, and the last one ends the transaction. -/
theorem transactionTime : Obligations.TransactionTime := by
  intro s h hp htx hr
  have hperiod : Machine.transactionTime s.cfg = s.cfg.busWidth.nph * (2 * s.cfg.settleTicks.toNat + 4) + 1 := rfl
  refine ⟨fun p o hpn ho => ?_, _, after_eq_iterate h.config hr, ?_⟩
  · obtain ⟨nib, hphase, -⟩ := h.atOffset_of_phase hp htx hpn
    have hoffset := hphase.iterate hp ho
    rw [← Function.iterate_add_apply, Nat.add_comm o] at hoffset
    have hlen : (p + 1) * (2 * s.cfg.settleTicks.toNat + 4) ≤ s.cfg.busWidth.nph * (2 * s.cfg.settleTicks.toNat + 4) :=
      Nat.mul_le_mul_right _ hpn
    rw [Nat.succ_mul] at hlen
    refine ⟨_, after_eq_iterate h.config (hr.mono (by omega)), hoffset.engine.state, ?_, ?_⟩
    · rw [hoffset.inv.lines.strobe, hoffset.engine.state]
      exact phaseCode_eq_ehi_iff
    · exact hoffset.word.trans (h.flightWord_of_txStart _ htx)
  · obtain ⟨q, hq⟩ : ∃ q, s.cfg.busWidth.nph = q + 1 := by
      cases s.cfg.busWidth
      · exact ⟨1, rfl⟩
      · exact ⟨0, rfl⟩
    obtain ⟨nib, hphase, hlast⟩ := h.atOffset_of_phase hp htx (p := q) (by omega)
    have hend := hphase.txDone hp (hlast hq.symm)
    have hsum : Machine.transactionTime s.cfg = (2 * s.cfg.settleTicks.toNat + 4) +
        (1 + q * (2 * s.cfg.settleTicks.toNat + 4)) := by
      rw [hperiod, hq, Nat.succ_mul]
      omega
    rw [hsum, Function.iterate_add_apply]
    exact hend

end Sys2Proof.TransactionTiming

namespace Sys2Proof.Machine

/-! ## Within a bound, at any `PRESCALE` (40 R127) -/

/-- `P` holds in some cycle of the next `n`. -/
def Within (n : Nat) (P : State → Prop) (s : State) : Prop := ∃ m ≤ n, P (nextCycle^[m] s)

namespace Within
variable {P Q : State → Prop} {m n : Nat} {s : State}

theorem now (h : P s) : Within n P s := ⟨0, Nat.zero_le n, h⟩

/-- One cycle, then the others. -/
theorem head (h : Within n P (nextCycle s)) : Within (n + 1) P s := by
  obtain ⟨k, hk, hp⟩ := h
  exact ⟨k + 1, Nat.succ_le_succ hk, hp⟩

theorem trans {k : Nat} (h : Within m P s) (hnext : ∀ t, P t → Within n Q t) (hk : k = m + n) : Within k Q s := by
  obtain ⟨i, hi, hp⟩ := h
  obtain ⟨j, hj, hq⟩ := hnext _ hp
  exact ⟨j + i, by omega, by rwa [Function.iterate_add_apply]⟩

theorem le (h : Within m P s) (hmn : m ≤ n) : Within n P s := by
  obtain ⟨k, hk, hp⟩ := h
  exact ⟨k, hk.trans hmn, hp⟩

theorem mono (h : Within n P s) (hpq : ∀ t, P t → Q t) : Within n Q s := by
  obtain ⟨k, hk, hp⟩ := h
  exact ⟨k, hk, hpq _ hp⟩

end Within

/-- The cycles that a running delay still takes: its remaining ticks, less what the prescaler has counted. -/
def remainingCycles (s : State) : Nat :=
  (s.timer.dlyTarget.toNat - s.timer.tickCount.toNat) * s.cfg.prescale - s.timer.preCnt

namespace ControlInv
variable {s : State} (h : ControlInv s)
include h

theorem remainingCycles_next (hbusy : s.timer.dlyBusy = true) (hrun : dlyDone s = false) :
    remainingCycles (nextCycle s) + 1 = remainingCycles s := by
  obtain ⟨-, htarget, hcount⟩ := h.timerOut_of_wait hbusy hrun
  have hp := h.preCnt
  obtain ⟨d, hd⟩ : ∃ d, s.timer.dlyTarget.toNat = s.timer.tickCount.toNat + 1 + d := by
    have hlt : s.timer.tickCount.toNat < s.timer.dlyTarget.toNat := by simpa [dlyDone, hbusy] using hrun
    exact Nat.exists_eq_add_of_le hlt
  have hnow : s.timer.dlyTarget.toNat - s.timer.tickCount.toNat = d + 1 := by omega
  simp only [remainingCycles, nextCycle_timer, nextCycle_cfg, htarget, hcount, timerOut_preCnt hp]
  by_cases ht : s.timer.preCnt = s.cfg.prescale - 1
  · have hwrap : s.timer.preCnt + 1 = s.cfg.prescale := by omega
    have hnext : s.timer.dlyTarget.toNat - (s.timer.tickCount.toNat + 1) = d := by omega
    rw [if_pos (tickEvent_iff.mpr ht), hwrap, Nat.mod_self, hnext, hnow, Nat.succ_mul]
    omega
  · have hsame : s.timer.dlyTarget.toNat - (s.timer.tickCount.toNat + 0) = d + 1 := hnow
    rw [if_neg (mt tickEvent_iff.mp ht), Nat.mod_eq_of_lt (by omega), hsame, hnow, Nat.succ_mul]
    omega

/-- A running delay is done when they are over, or before, and nothing moves meanwhile. -/
theorem within_dlyDone (hbusy : s.timer.dlyBusy = true) :
    Within (remainingCycles s) (fun t => ControlInv t ∧ dlyDone t = true ∧ SameMachines s t) s := by
  induction hn : remainingCycles s generalizing s with
  | zero =>
    refine .now ⟨h, ?_, rfl, rfl, rfl, rfl, rfl⟩
    by_contra hrun
    have hnext := h.remainingCycles_next hbusy (eq_false_of_ne_true hrun)
    omega
  | succ n ih =>
    by_cases hdone : dlyDone s = true
    · exact .now ⟨h, hdone, rfl, rfl, rfl, rfl, rfl⟩
    have hrun : dlyDone s = false := eq_false_of_ne_true hdone
    have hnext := h.remainingCycles_next hbusy hrun
    have hsame := h.sameMachines_of_wait hbusy hrun
    obtain ⟨hbusy', -, -⟩ := h.timerOut_of_wait hbusy hrun
    exact .head ((ih h.next hbusy' (by omega)).mono fun t ⟨hinv, hdone, hsame'⟩ => ⟨hinv, hdone, hsame.trans hsame'⟩)

end ControlInv

namespace Transmits
variable {r t : State} {code code' : BitVec 3} {nib : Bool}

/-- A strobe hold started in this cycle is over within `SETTLE_TICKS PRESCALE + 1` cycles (40 R127). -/
theorem within_holdDone (h : Transmits r code nib t) (hstart : dbmDlyStart t = true)
    (hnext : Transmits r code' nib (nextCycle t)) :
    Within (r.cfg.settleTicks.toNat * r.cfg.prescale + 1) (fun u => Transmits r code' nib u ∧ dlyDone u = true) t := by
  have hbusy : t.eng.state ≠ EngCode.dIdle := by
    obtain heng | ⟨heng, -⟩ := dbmDlyStart_iff.mp hstart <;> simp [heng]
  have hticks : dlyTicks t = r.cfg.settleTicks := by
    simp [dlyTicks, h.inv.handshake.seqDlyStart_eq_false hbusy, h.cfg]
  obtain ⟨hclear, hbusy', htarget⟩ := timerOut_of_start (s := t) (by simp [dlyStart, hstart])
  have hcycles : remainingCycles (nextCycle t) ≤ r.cfg.settleTicks.toNat * r.cfg.prescale := by
    simp only [remainingCycles, nextCycle_timer, hclear, htarget, hticks, nextCycle_cfg, h.cfg]
    exact Nat.sub_le _ _
  exact (Within.head ((hnext.inv.within_dlyDone hbusy').mono fun u ⟨hinv, hdone, hsame⟩ =>
    ⟨hnext.of_sameMachines hinv hsame, hdone⟩)).le (Nat.succ_le_succ hcycles)

/-- One phase, up to the end of its low hold: setup, strobe on and the two holds. -/
theorem within_lowHoldDone (h : Transmits r EngCode.dSetup nib t) :
    Within (1 + 2 * (r.cfg.settleTicks.toNat * r.cfg.prescale + 1))
      (fun u => Transmits r EngCode.dElo nib u ∧ dlyDone u = true) t := by
  have hEon : Within 1 (Transmits r EngCode.dEon nib) t := .head (.now h.setup_next)
  have hEhi : ∀ u, Transmits r EngCode.dEon nib u → Within (r.cfg.settleTicks.toNat * r.cfg.prescale + 1)
      (fun v => Transmits r EngCode.dEhi nib v ∧ dlyDone v = true) u := fun u hu =>
    hu.within_holdDone (dbmDlyStart_iff.mpr (.inl hu.state)) hu.eon_next
  have hElo : ∀ u, Transmits r EngCode.dEhi nib u ∧ dlyDone u = true →
      Within (r.cfg.settleTicks.toNat * r.cfg.prescale + 1)
        (fun v => Transmits r EngCode.dElo nib v ∧ dlyDone v = true) u := fun u ⟨hu, hdone⟩ =>
    hu.within_holdDone (dbmDlyStart_iff.mpr (.inr ⟨hu.state, hdone⟩)) (hu.ehi_next hdone)
  exact (hEon.trans hEhi rfl).trans hElo (by omega)

/-- The first of two phases is followed by the second. -/
theorem within_secondPhase (hw : r.cfg.busWidth = .four) (h : Transmits r EngCode.dSetup false t) :
    Within (2 + 2 * (r.cfg.settleTicks.toNat * r.cfg.prescale + 1)) (Transmits r EngCode.dSetup true) t :=
  h.within_lowHoldDone.trans (n := 1) (fun _ ⟨hu, hdone⟩ => .head (.now (hu.elo_next_first hdone hw))) (by omega)

/-- The last phase is followed by the end of the transaction. -/
theorem within_txDone (hlast : r.cfg.busWidth = .four → nib = true) (h : Transmits r EngCode.dSetup nib t) :
    Within (2 + 2 * (r.cfg.settleTicks.toNat * r.cfg.prescale + 1)) (fun u => txDone u = true) t :=
  h.within_lowHoldDone.trans (n := 1)
    (fun _ ⟨hu, hdone⟩ => .head (.now (txDone_iff.mpr (hu.elo_next_last hdone hlast).state))) (by omega)

end Transmits

/-- Settles O38: one cycle to take the request, and each phase within its bound. -/
theorem transactionAlwaysEnds : Obligations.TransactionAlwaysEnds := by
  intro s h htx hold bound hr
  have hfirst := h.controlInv.transmits_of_txStart htx
  obtain ⟨n, hn, hdone⟩ : Within bound (fun t => txDone t = true) s := by
    cases hw : s.cfg.busWidth with
    | four =>
      have hw' : (nextCycle s).cfg.busWidth = .four := hw
      have hends := (hfirst.within_secondPhase hw').trans (fun u hu => hu.within_txDone fun _ => rfl) rfl
      refine (Within.head hends).le ?_
      simp only [bound, hold, hw, BusWidth.nph, nextCycle_cfg]
      omega
    | eight =>
      have hw' : (nextCycle s).cfg.busWidth = .eight := hw
      have hends := hfirst.within_txDone fun hfour => absurd (hw'.symm.trans hfour) (by decide)
      refine (Within.head hends).le ?_
      simp only [bound, hold, hw, BusWidth.nph, nextCycle_cfg]
      omega
  exact ⟨n, hn, _, after_eq_iterate h.config (hr.mono hn), hdone⟩

end Sys2Proof.Machine
end
